-- ==== Sys2Proof/Word.lean ====
section
/-! DEFINITION. The word types of the TN5120 model and their plainest arithmetic. -/

namespace Sys2Proof

/-- One byte of a frame, an image or device memory. -/
abbrev Byte := BitVec 8

/-- A register word: registers are 32 bits wide (R11). -/
abbrev Word32 := BitVec 32

/-- A Dinum register or instruction word, 64 bits (R63, R103). -/
abbrev Word64 := BitVec 64

/-- Bits [hi:lo] of a word as a number, in the manual's notation (R7). -/
def bits {w : Nat} (x : BitVec w) (hi lo : Nat) : Nat := (x.toNat >>> lo) % 2 ^ (hi + 1 - lo)

/-- Bit n of a word (R7). -/
def bit {w : Nat} (x : BitVec w) (n : Nat) : Bool := x.getLsbD n

/-- The word x with bits [hi:lo] replaced by the low bits of v. -/
def setBits {w : Nat} (x : BitVec w) (hi lo : Nat) (v : Nat) : BitVec w :=
  let m : BitVec w := BitVec.ofNat w ((2 ^ (hi + 1 - lo) - 1) <<< lo)
  (x &&& ~~~m) ||| (BitVec.ofNat w ((v % 2 ^ (hi + 1 - lo)) <<< lo))

/-- A Bool as 0 or 1. -/
def b2n (b : Bool) : Nat := if b then 1 else 0

end Sys2Proof
end

