-- ==== Sys2Proof/Syntax.lean ====
section
/-! DEFINITION. The commands of the TN5120 as plain data: one constructor of Instr for each row of
spec/opcode_table.json. A command is one indivisible operation or event of the part (95_what_each_step_holds);
its arguments are what the row's rule leaves to the party that causes it: the operands of a Dinum word, the fields
of a DCP operation, the bytes of a frame, the level of a pin, the outcome of an analogue measurement. -/

namespace Sys2Proof

/-- One hardware thread: cluster C0-C31, logical Scribe 0-63, thread 0-7 (R59, R60). -/
structure Tid where
  cluster : Fin 32
  scribe  : Fin 64
  thread  : Fin 8
  deriving DecidableEq, Repr

/-- A Dinum operand, one constructor for each assigned type of Table 4.3 (R108). -/
inductive Operand where
  /-- type 0x0, register Gn -/
  | reg (n : Fin 32)
  /-- type 0x1, unsigned immediate -/
  | uimm (v : BitVec 12)
  /-- type 0x2, signed immediate -/
  | simm (v : BitVec 12)
  /-- type 0x3, header bytes at an absolute window offset, width code w for w + 1 bytes -/
  | hdrAbs (off : BitVec 8) (w : BitVec 3)
  /-- type 0x4, header bytes at HDR_OFF i + d, width code 0-3 for 1, 2, 4, 8 bytes -/
  | hdrRel (i : BitVec 5) (d : BitVec 5) (wc : BitVec 2)
  /-- type 0x5, call slip bytes, width code w for w + 1 bytes -/
  | slip (off : BitVec 7) (w : BitVec 3)
  /-- type 0x6, half of lookup result Li -/
  | lookup (i : Fin 4) (hi : Bool)
  /-- type 0x7, predicate Ti -/
  | pred (i : Fin 4)
  /-- type 0x9, table number -/
  | table (n : BitVec 8)
  /-- type 0xA, displacement in words -/
  | disp (d : BitVec 12)
  /-- type 0xF, none -/
  | none
  deriving DecidableEq, Repr

/-- The header of a DCP operation as Table 13.1 gives it, with the host port and the source address it came from
(R338, R342). -/
structure OpHdr where
  hp      : Fin 2
  mac     : BitVec 48
  session : Fin 16
  seq     : BitVec 32
  version : BitVec 8
  flags   : BitVec 8
  tag     : BitVec 32
  epoch   : BitVec 32
  deriving DecidableEq, Repr

/-- Source of a machine check (SCR_MC_LAST.SOURCE; R69, R97, R98). -/
inductive McSource where
  | program | codex | budget
  deriving DecidableEq, Repr

/-- Control store named by the scrubber (R102). -/
inductive Store where
  | program | codex
  deriving DecidableEq, Repr

/-- Why the MAC found a received frame bad, in the order of R256; none is a good frame. -/
inductive RxErr where
  | good | code | fcs
  deriving DecidableEq, Repr

/-- The end of a received frame: what the MAC found, and what the FEC decoder made of the codewords that ended with it, corrected ones,
uncorrectable ones and corrected symbols (R253, R256). -/
structure RxEnd where
  mac           : RxErr
  corrected     : Nat
  uncorrectable : Nat
  symbols       : Nat
  deriving DecidableEq, Repr

/-- An uncorrectable codeword makes the frame a frame with a code error (R256). -/
def RxEnd.err (e : RxEnd) : RxErr := if e.uncorrectable = 0 then e.mac else .code

/-- What the RS(240,224) decoder makes of a received codeword: right as received, put right by inverting the bits with these
numbers, or uncorrectable (R279). -/
inductive Fec where
  | clean | fixed (flips : List Nat) | bad
  deriving DecidableEq, Repr

/-- What a buffer is requested for (Table 7.3, R197): cells of a received frame, a shelving page, cells that a commit adds
to a packet of a class, cells of multicast copies, of mirror copies, for recalled cells, BALLOC, cells of an injected
packet. -/
inductive Requester where
  | ingress | page | added (cls : Fin 7) | replication | mirror | recall | scratch | host
  deriving DecidableEq, Repr

/-- What a transfer of the Stacks that fails EDC carries (R208). -/
inductive Transfer where
  | recall | post | hostRead | other
  deriving DecidableEq, Repr

/-- Bits that have been upset in the two copies of a word of a control store (R97): the data bits first, the parity bits above them. -/
structure Upsets where
  main   : BitVec 396
  shadow : BitVec 396
  deriving DecidableEq, Repr

/-- What fabric training finds of the pairs of a lane: receive and transmit crossed, the receive pair inverted (R287). -/
structure PairFaults where
  crossed  : Bool
  inverted : Bool
  deriving DecidableEq, Repr

/-- A pass of the cipher engine at a slice, and the instant of the tick at which its frame reaches the wire. -/
structure PassAt where
  slice : Fin 8
  dt    : Word64
  deriving DecidableEq, Repr

/-- An error on a quadrant's control channel, and whether the code corrects it (R36). -/
structure CtrlError where
  quad      : Fin 4
  corrected : Bool
  deriving DecidableEq, Repr

/-- An error in a unit of a wing, and whether SECDED corrects it (R412, R415). -/
structure UnitError where
  unit      : Nat
  corrected : Bool
  deriving DecidableEq, Repr

/-- An error in a cell of the on-die buffer, and whether SECDED corrects it (R412, R416). -/
structure CellError where
  cell      : Nat
  corrected : Bool
  deriving DecidableEq, Repr

/-- The form of an SMBus transaction (R353): a Block Read or a Read Word, whether the controller clocks a PEC byte, and the bytes it
writes beyond the command byte. -/
structure SmForm where
  block   : Bool
  pec     : Bool
  written : List Byte
  deriving DecidableEq, Repr

/-- The 242 commands. A time "dt" is the advance of the output timescale since the last tick boundary, in units of
2^-32 ns; "back" is how far the output timescale has advanced since the first bit after a frame's start-of-frame
delimiter crossed the balls; "edge" is a count of REFCLK edges since the last boundary. -/
inductive Instr where
  -- reset, clocks and start-up
  | resetNAssert
  | startWindowEnd
  | xtalProven
  | refLostInOscStart
  | aonUpEnd
  | refWindowEnd (refEdges frefEdges : Nat)
  | coreUpDone
  | memTrainDone (results : List (BitVec 8))
  | refLost
  | safeStopEnd
  | haltedRestart
  | frefLost
  -- the Almanac
  | tickBoundary (throtN : Bool)
  | tickOverrun (t : Tid)
  | tickSyncPulse (edge : Nat)
  | syncLost
  | resync
  | resyncTick (edge : Nat)
  | almTickSetHiWrite (v : Word32)
  | droopStretch (cycles : Nat)
  -- frames and placement
  | frameReceive (port : Nat) (data : List Byte) (e : RxEnd) (dt back : Word64)
  | cutThroughTake (port : Nat) (data : List Byte) (dt back : Word64)
  | frameEndCut (port : Nat) (rest : List Byte) (e : RxEnd)
  | accessionPlace (slice : Fin 8)
  | egressDispatch (slice : Fin 8)
  | pauseFrameReceive (port : Nat) (pfc : Bool) (enables : BitVec 8) (times : List (BitVec 16))
  | pauseExpire (port : Nat) (prio : Fin 8)
  | pauseFrameSend (port : Nat)
  -- Dinum words (R103 to R133)
  | add (t : Tid) (p : BitVec 4) (a b c : Operand)
  | sub (t : Tid) (p : BitVec 4) (a b c : Operand)
  | and (t : Tid) (p : BitVec 4) (a b c : Operand)
  | or (t : Tid) (p : BitVec 4) (a b c : Operand)
  | xor (t : Tid) (p : BitVec 4) (a b c : Operand)
  | shl (t : Tid) (p : BitVec 4) (a b c : Operand)
  | shr (t : Tid) (p : BitVec 4) (a b c : Operand)
  | rot (t : Tid) (p : BitVec 4) (a b c : Operand)
  | min (t : Tid) (p : BitVec 4) (a b c : Operand)
  | max (t : Tid) (p : BitVec 4) (a b c : Operand)
  | cmp (t : Tid) (p : BitVec 4) (b c : Operand)
  | mov (t : Tid) (p : BitVec 4) (a b : Operand)
  | sel (t : Tid) (p : BitVec 4) (a b c : Operand)
  | bfx (t : Tid) (p : BitVec 4) (a b : Operand) (c : BitVec 12)
  | bfi (t : Tid) (p : BitVec 4) (a b : Operand) (c : BitVec 12)
  | popc (t : Tid) (p : BitVec 4) (a b : Operand)
  | clz (t : Tid) (p : BitVec 4) (a b : Operand)
  | hash (t : Tid) (p : BitVec 4) (a : Operand) (n : Fin 32) (c : BitVec 12)
  | csum (t : Tid) (p : BitVec 4) (a b c : Operand)
  | csumi (t : Tid) (p : BitVec 4) (a b c : Operand)
  | ldh (t : Tid) (p : BitVec 4) (a b : Operand) (c : BitVec 12)
  | sth (t : Tid) (p : BitVec 4) (a b : Operand) (c : BitVec 12)
  | insh (t : Tid) (p : BitVec 4) (a b : Operand)
  | delh (t : Tid) (p : BitVec 4) (a b : Operand)
  | align (t : Tid) (p : BitVec 4) (a : BitVec 12)
  | lkx (t : Tid) (p : BitVec 4) (i : Fin 4) (b : Operand) (tbl : BitVec 8)
  | lkp (t : Tid) (p : BitVec 4) (i : Fin 4) (b : Operand) (tbl : BitVec 8)
  | lkt (t : Tid) (p : BitVec 4) (i : Fin 4) (b : Operand) (tbl : BitVec 8)
  | lookupResult (t : Tid) (i : Fin 4)
  | lkw (t : Tid) (p : BitVec 4) (mask : BitVec 12)
  | lkwRelease (t : Tid)
  | upd (t : Tid) (p : BitVec 4) (i : Fin 4) (b : Operand)
  | learn (t : Tid) (p : BitVec 4) (tbl : BitVec 8) (b c : Operand)
  | post (t : Tid) (p : BitVec 4) (tbl : BitVec 8) (b : Operand) (n : Fin 32)
  | br (t : Tid) (d : BitVec 12)
  | brc (t : Tid) (p : BitVec 4) (d : BitVec 12)
  | loop (t : Tid) (p : BitVec 4) (count : BitVec 12) (body : BitVec 12)
  | exit (t : Tid) (p : BitVec 4)
  | abort (t : Tid) (p : BitVec 4)
  | fwd (t : Tid) (p : BitVec 4)
  | drop (t : Tid) (p : BitVec 4)
  | repl (t : Tid) (p : BitVec 4)
  | punt (t : Tid) (p : BitVec 4) (a : Operand)
  | recirc (t : Tid) (p : BitVec 4)
  | mirror (t : Tid) (p : BitVec 4) (a : Operand)
  | slipDest (t : Tid) (p : BitVec 4) (a : BitVec 12) (b : Operand)
  | slipClass (t : Tid) (p : BitVec 4) (a b : Operand)
  | slipEgr (t : Tid) (p : BitVec 4) (a b : Operand)
  | cnt (t : Tid) (p : BitVec 4) (a b : Operand)
  | meter (t : Tid) (p : BitVec 4) (a b c : Operand)
  | cread (t : Tid) (p : BitVec 4) (a b : Operand)
  | tstamp (t : Tid) (p : BitVec 4) (a : Operand) (dt : Word64)
  | qdepth (t : Tid) (p : BitVec 4) (a b : Operand)
  | ioam (t : Tid) (p : BitVec 4) (a b : Operand) (c : BitVec 12)
  | sasel (t : Tid) (p : BitVec 4) (a : Operand)
  | balloc (t : Tid) (p : BitVec 4) (a b : Operand)
  | bfree (t : Tid) (p : BitVec 4) (a : Operand)
  | nop (t : Tid) (p : BitVec 4)
  -- commit and control-store faults
  | commitApply (t : Tid)
  | machineCheck (t : Tid) (src : McSource) (u : Upsets)
  | scrubVisit (cluster : Fin 32) (store : Store) (addr : Nat) (main shadow : BitVec 396)
  -- DCP operations
  | hello (h : OpHdr) (minVer maxVer role : BitVec 8)
  | read (h : OpHdr) (ca : Word32)
  | write (h : OpHdr) (ca value : Word32)
  | rmw (h : OpHdr) (ca mask value : Word32)
  | bulkRead (h : OpHdr) (addr : Word64) (len : Word32)
  | bulkWrite (h : OpHdr) (addr : Word64) (len : Word32) (data : List Byte)
  | fence (h : OpHdr)
  | fenceComplete (session : Fin 16) (seq : Word32)
  | fenceDrainComplete (session : Fin 16) (seq : Word32)
  | fenceTimeout (session : Fin 16) (seq : Word32)
  | enable (h : OpHdr)
  | checkComplete
  | disable (h : OpHdr)
  | drainEnd
  | stopClusterStop (h : OpHdr) (mask : Word32)
  | stopClusterStart (h : OpHdr) (mask : Word32)
  | clusterCheckDone (cluster : Fin 32)
  | loadImage (h : OpHdr) (kind : BitVec 8) (mask total offset : Word32) (seg : List Byte)
  | fieldRecord (h : OpHdr)
  | takeover (h : OpHdr) (newEpoch : Word32)
  | dcpFrameReceive (hp : Fin 2) (mac : BitVec 48) (body : List Byte)
  | hostFrameReceive (hp : Fin 2) (frame : List Byte) (fcsOk : Bool)
  | injectReceive (hp : Fin 2) (body : List Byte) (dt : Word64)
  | dcpResponseSend (hp : Fin 2)
  | notice (type : BitVec 16) (body : List Byte) (dt : Word64)
  | keepaliveExpire
  | failover (hp : Fin 2)
  | dcpHostportWrite (v : Word32)
  | dcpNoticeAckWrite (v : Word32)
  | registerWrite (ca v : Word32)
  | bankSwitch (slice : Fin 8)
  | catDirWord0Write (pair : Fin 4) (table : BitVec 8) (v : Word32)
  | unlockAll (wing : Fin 8)
  | learnEngineAttempt (wing : Fin 8) (dt : Word64)
  | learnLocked (wing : Fin 8)
  | freezeEnd (wing : Fin 8)
  | sweepVisit (wing : Fin 8) (unit : Nat) (dt : Word64)
  | sweepLate (wing : Fin 8)
  | catRepair (wing : Fin 8) (e : UnitError)
  -- Circulation and the Stacks
  | circHostFree (v : Word32)
  | cacheRefillArrive (pool : Fin 16) (quad : Fin 4)
  | cacheSpill (pool : Fin 16) (quad : Fin 4)
  | bufferRequest (who : Requester) (pool : Fin 16) (quad : Fin 4) (n : Nat)
  | bufferFree (pool : Fin 16) (quad : Fin 4) (num : Word32) (cls : BitVec 4)
  | shelvePage (queue : Nat)
  | pageRequestRetry (queue : Nat)
  | recallComplete (queue : Nat) (bad : Bool)
  | edcFailure (port : Fin 24) (recovered : Bool) (what : Transfer)
  | gddrPortLost (port : Fin 24) (stoppedAnswering : Bool)
  | remapDone (port : Fin 24)
  | lostPagesMarked (port : Fin 24)
  | unmap (port : Fin 24)
  | retrain (port : Fin 24)
  | retrainAll (quad : Fin 4)
  | trainDone (quad : Fin 4) (results : List (BitVec 8))
  -- switch core and queues
  | cellArrive (plane : Fin 16) (hcrcBad : Bool)
  | reseqGap (slice : Nat) (ctx : Nat)
  | planeDown (plane : Fin 16) (missed : BitVec 8)
  | takeOut (plane : Fin 16)
  | planeReturn (plane : Fin 16)
  | planeTestEnd (plane : Fin 16) (missed : BitVec 8)
  | pathFlushEnd
  | enqueue (slice : Fin 8)
  | dequeue (port : Nat) (dt : Word64)
  | transmit (slice : Fin 8) (dt : Word64)
  | transmitComplete (port : Nat)
  | portFlush (port : Nat)
  | portFlushEnd (port : Nat)
  | replicate
  | residueRetry
  | residueExpired
  | mirrorCopy
  -- Ethernet ports
  | portEnable (port : Nat) (en : Bool)
  | anAgree (port : Nat) (partner : List (Nat × Nat))
  | trainingDone (port : Nat) (inverted : BitVec 8)
  | linkUp (port : Nat) (reversed : Bool)
  | alignFail (port : Nat)
  | linkLoss (port : Nat) (localFault remoteFault : Bool)
  | holdRestore (port : Nat)
  | holdExpire (port : Nat)
  | octModeWrite (octet : Fin 64) (v : Word32)
  | eyeScanStart (octet : Fin 64)
  | eyeScanCancel (octet : Fin 64)
  | eyePointDone (octet : Fin 64) (errors : Nat)
  | eyeDone (octet : Fin 64)
  | rclkSquelch (b : Bool)
  | rclkResume (b : Bool)
  -- fabric links
  | fabTrainingDone (lane : Nat) (partnerDev : BitVec 6) (partnerLane : BitVec 9) (fe : Bool) (minVer maxVer : Nat)
      (compact freqBad : Bool) (pair : PairFaults) (rtt : BitVec 24)
  | commaLock (lane : Nat)
  | bitslip (lane : Nat)
  | alignDone (lane : Nat)
  | fabRetrain (lane : Nat)
  | fabTestPass (lane : Nat)
  | linkFrameReceive (lane : Nat) (corrected : List (List Nat)) (uncorrectable : BitVec 3) (line : List Byte)
  | credit (lane : Nat) (target : BitVec 6) (slice : Fin 8) (tc : Fin 8) (total : BitVec 16) (granting : BitVec 6)
  | reach (lane : Nat) (upper : Bool) (map : Word32)
  | creditReset (lane : Nat) (target sending : BitVec 6)
  | creditRefresh (dev : BitVec 6)
  | fabLaneDisable (lane : Nat)
  | fabGracefulEnd (lane : Nat)
  | linkLost (lane : Nat)
  -- cipher engine
  | macsecRxPass (port : Nat) (dt : Word64)
  | icvCheckDone (port : Nat)
  | outboundPass (p : PassAt)
  | espInboundPass (p : PassAt)
  | cipSaRead (slice : Fin 8)
  | cipSaWrite (slice : Fin 8)
  | cipSaClear (slice : Fin 8)
  | exportClear (slice : Fin 8)
  | exportWrap (slice : Fin 8) (kek : Fin 4)
  | importRecord (slice : Fin 8) (target : BitVec 18)
  | keyCommit
  | keyErase
  -- time
  | timeOfsWrite (d : Fin 2) (v : Word32)
  | timeIncWrite (d : Fin 2) (v : Word32)
  | switchJump
  | switchSlew
  | slewDone
  | evtEdge (pin : Fin 16) (rising : Bool) (dt : Word64)
  | evtArm (pin : Fin 4) (v : Word32)
  | evtPulse (pin : Fin 4) (dt : Word64)
  | tsqRelease (n : Word32)
  -- counters and Chronicle
  | chronSnapshot
  | chronRecordDone
  | chrCfgWrite (v : Word32)
  | chrRdIdxWrite (v : Word32)
  | chrThrWrite (t : Fin 1024) (w : Fin 2) (v : Word32)
  -- clocks, power and heat
  | powCtlWrite (v : Word32)
  | regReadback
  | regTimeout (slots : BitVec 8)
  | firstCoreSlot
  | regulatorPoll (volts amps : List (Option (BitVec 16)))
  | railWindowEnd (rail : Fin 7)
  | capCheck
  | thermalCheck
  | sensorSample (temps : List (Option (BitVec 16)))
  | thermShutdown
  | jobEnergyUpdate (dt : Word64)
  | clkGate
  | clkUngate
  | gateBusy
  -- service life
  | vigilEvent (event : BitVec 16) (object : Word32) (dt : Word64)
  | lifeLogBurn
  | ctrlUecc (e : CtrlError)
  | odbUecc (e : CellError)
  | smbusTransaction (command : BitVec 8) (form : SmForm)
  | tapInstruction (opcode : BitVec 8)
  | resetNRelease (straps : BitVec 10)
  | xtalProofFail
  | phaseWanderExceeded (lane : Nat)
  | tickOutPulse
  | gddrRetrainDone (port : Fin 24) (result : BitVec 8)
  | stateWordCheckDone
  deriving DecidableEq, Repr

end Sys2Proof
end

