-- ==== Sys2Proof/Decode.lean ====
section
/-! DEFINITION. The encoding of Dinum words (R103, R108) and the command a word of the opcode table spells. -/

namespace Sys2Proof

/-- The fields of a Dinum word (Table 4.1), its operands decoded. -/
structure DWord where
  nw   : BitVec 12
  pred : BitVec 4
  a    : Operand
  b    : Operand
  c    : Operand
  deriving DecidableEq, Repr

/-- The 16 bits of an operand (Table 4.3). -/
def encodeOperand : Operand → BitVec 16
  | .reg n => BitVec.ofNat 16 n.val
  | .uimm v => 0x1#4 ++ v
  | .simm v => 0x2#4 ++ v
  | .hdrAbs off w => 0x3#4 ++ off ++ 0#1 ++ w
  | .hdrRel i d wc => 0x4#4 ++ i ++ d ++ wc
  | .slip off w => 0x5#4 ++ 0#1 ++ off ++ 0#1 ++ w
  | .lookup i hi => 0x6#4 ++ 0#9 ++ BitVec.ofNat 2 i.val ++ BitVec.ofBool hi
  | .pred i => 0x7#4 ++ 0#10 ++ BitVec.ofNat 2 i.val
  | .table n => 0x9#4 ++ 0#4 ++ n
  | .disp d => 0xA#4 ++ d
  | .none => 0xF000#16

/-- The operand that 16 bits spell; none for a reserved encoding or a reserved bit that is not zero (R108, R113). -/
def decodeOperand (x : BitVec 16) : Option Operand :=
  let v := x.extractLsb' 0 12
  match bits x 15 12 with
  | 0x0 => if bits x 11 5 = 0 then some (.reg (Fin.ofNat 32 (bits x 4 0))) else none
  | 0x1 => some (.uimm v)
  | 0x2 => some (.simm v)
  | 0x3 => if bit x 3 then none else some (.hdrAbs (x.extractLsb' 4 8) (x.extractLsb' 0 3))
  | 0x4 => some (.hdrRel (x.extractLsb' 7 5) (x.extractLsb' 2 5) (x.extractLsb' 0 2))
  | 0x5 => if bit x 11 || bit x 3 then none else some (.slip (x.extractLsb' 4 7) (x.extractLsb' 0 3))
  | 0x6 => if bits x 11 3 = 0 then some (.lookup (Fin.ofNat 4 (bits x 2 1)) (bit x 0)) else none
  | 0x7 => if bits x 11 2 = 0 then some (.pred (Fin.ofNat 4 (bits x 1 0))) else none
  | 0x9 => if bits x 11 8 = 0 then some (.table (x.extractLsb' 0 8)) else none
  | 0xA => if v = 0 then none else some (.disp v)
  | 0xF => if v = 0 then some .none else none
  | _ => none

/-- The 64 bits of a word (Table 4.1). -/
def encodeWord (w : DWord) : BitVec 64 :=
  w.nw ++ w.pred ++ encodeOperand w.a ++ encodeOperand w.b ++ encodeOperand w.c

/-- The word that 64 bits spell; none where an operand is a reserved encoding. -/
def decodeWord (x : BitVec 64) : Option DWord :=
  match decodeOperand (x.extractLsb' 32 16), decodeOperand (x.extractLsb' 16 16), decodeOperand (x.extractLsb' 0 16) with
  | some a, some b, some c => some { nw := x.extractLsb' 52 12, pred := x.extractLsb' 48 4, a := a, b := b, c := c }
  | _, _, _ => none

/-- Operand class "r" of section 4 of the instruction chapter: the operands that may be written. -/
def Operand.isR : Operand → Bool
  | .reg _ | .hdrAbs _ _ | .hdrRel _ _ _ | .slip _ _ | .pred _ => true
  | _ => false

/-- Operand class "s": r, immediates and lookup results. -/
def Operand.isS : Operand → Bool
  | .uimm _ | .simm _ | .lookup _ _ => true
  | o => o.isR

/-- Operand class "G": registers. -/
def Operand.isG : Operand → Bool
  | .reg _ => true
  | _ => false

/-- Type 0x1 with a value that a predicate accepts. -/
def Operand.isImm (ok : Nat → Bool) : Operand → Bool
  | .uimm v => ok v.toNat
  | _ => false

/-- Type 0x6 with half bit 0 (R121). -/
def Operand.isL : Operand → Bool
  | .lookup _ hi => !hi
  | _ => false

/-- Type 0x6, either half. -/
def Operand.isLookup : Operand → Bool
  | .lookup _ _ => true
  | _ => false

/-- Type 0x9. -/
def Operand.isTable : Operand → Bool
  | .table _ => true
  | _ => false

/-- Type 0xA; the value 0 is a reserved encoding (R108). -/
def Operand.isDisp : Operand → Bool
  | .disp d => decide (d ≠ 0)
  | _ => false

/-- Type 0xF. -/
def Operand.isNone : Operand → Bool
  | .none => true
  | _ => false

/-- A header operand one byte wide (R132). -/
def Operand.isHdrByte : Operand → Bool
  | .hdrAbs _ w => decide (w = 0)
  | .hdrRel _ _ wc => decide (wc = 0)
  | _ => false

/-- Operand C of HASH (R115): a Toeplitz length is at most 36, and CRC-32C names no key register. -/
def hashImmOk (v : Nat) : Bool := if v / 2048 % 2 = 1 then decide (v % 64 ≤ 36) else decide (v / 64 % 32 = 0)

/-- Whether a word's predicate and operands are those its nanoword permits (R104, R106, R113, R115, R117, R121, R132):
a word of which this is false is refused with IMAGE_FORMAT. -/
def DWord.ok (w : DWord) : Bool :=
  let a := w.a
  let b := w.b
  let c := w.c
  match w.nw.toNat with
  | 0x001 | 0x002 | 0x003 | 0x004 | 0x005 | 0x006 | 0x007 | 0x008 | 0x009 | 0x00A | 0x00D | 0x013 | 0x014 =>
    a.isR && b.isS && c.isS
  | 0x00B => a.isNone && b.isS && c.isS
  | 0x00C | 0x010 | 0x011 => a.isR && b.isS && c.isNone
  | 0x00E | 0x00F => a.isR && b.isS && c.isImm (fun _ => true)
  | 0x012 => a.isR && b.isG && c.isImm hashImmOk
  | 0x100 => a.isR && b.isS && c.isImm (fun v => decide (1 ≤ v) && decide (v ≤ 8))
  | 0x101 => a.isS && b.isS && c.isImm (fun v => decide (1 ≤ v) && decide (v ≤ 8))
  | 0x102 | 0x103 => a.isS && b.isS && c.isNone
  | 0x104 => a.isImm (fun v => decide (v ≤ 31)) && b.isNone && c.isNone
  | 0x200 | 0x201 | 0x202 => a.isL && b.isS && c.isTable
  | 0x208 => a.isImm (fun _ => true) && b.isNone && c.isNone
  | 0x210 => a.isLookup && b.isS && c.isNone
  | 0x211 => a.isTable && b.isS && c.isS
  | 0x212 => a.isTable && b.isS && c.isG
  | 0x300 => decide (w.pred = 0) && a.isNone && b.isNone && c.isDisp
  | 0x301 => a.isNone && b.isNone && c.isDisp
  | 0x302 => a.isImm (fun _ => true) && b.isDisp && c.isNone
  | 0x403 => (a.isS || a.isNone) && b.isNone && c.isNone
  | 0x410 | 0x700 | 0x702 => a.isS && b.isNone && c.isNone
  | 0x420 => a.isImm (fun _ => true) && b.isS && c.isNone
  | 0x421 | 0x422 => a.isS && b.isS && c.isNone
  | 0x500 => a.isS && (b.isS || b.isNone) && c.isNone
  | 0x501 => a.isR && b.isS && (c.isS || c.isNone)
  | 0x502 | 0x601 | 0x701 => a.isR && b.isS && c.isNone
  | 0x600 => a.isR && b.isNone && c.isNone
  | 0x602 => a.isHdrByte && b.isS && c.isImm (fun v => decide (v ≤ 1))
  | n => if 0x800 ≤ n then true else a.isNone && b.isNone && c.isNone

/-- The thread and the word of a command that is the issue of a Dinum word; none for every other command. -/
def Instr.dword : Instr → Option (Tid × DWord)
  | .add t p a b c => some (t, ⟨0x001, p, a, b, c⟩)
  | .sub t p a b c => some (t, ⟨0x002, p, a, b, c⟩)
  | .and t p a b c => some (t, ⟨0x003, p, a, b, c⟩)
  | .or t p a b c => some (t, ⟨0x004, p, a, b, c⟩)
  | .xor t p a b c => some (t, ⟨0x005, p, a, b, c⟩)
  | .shl t p a b c => some (t, ⟨0x006, p, a, b, c⟩)
  | .shr t p a b c => some (t, ⟨0x007, p, a, b, c⟩)
  | .rot t p a b c => some (t, ⟨0x008, p, a, b, c⟩)
  | .min t p a b c => some (t, ⟨0x009, p, a, b, c⟩)
  | .max t p a b c => some (t, ⟨0x00A, p, a, b, c⟩)
  | .cmp t p b c => some (t, ⟨0x00B, p, .none, b, c⟩)
  | .mov t p a b => some (t, ⟨0x00C, p, a, b, .none⟩)
  | .sel t p a b c => some (t, ⟨0x00D, p, a, b, c⟩)
  | .bfx t p a b c => some (t, ⟨0x00E, p, a, b, .uimm c⟩)
  | .bfi t p a b c => some (t, ⟨0x00F, p, a, b, .uimm c⟩)
  | .popc t p a b => some (t, ⟨0x010, p, a, b, .none⟩)
  | .clz t p a b => some (t, ⟨0x011, p, a, b, .none⟩)
  | .hash t p a n c => some (t, ⟨0x012, p, a, .reg n, .uimm c⟩)
  | .csum t p a b c => some (t, ⟨0x013, p, a, b, c⟩)
  | .csumi t p a b c => some (t, ⟨0x014, p, a, b, c⟩)
  | .ldh t p a b c => some (t, ⟨0x100, p, a, b, .uimm c⟩)
  | .sth t p a b c => some (t, ⟨0x101, p, a, b, .uimm c⟩)
  | .insh t p a b => some (t, ⟨0x102, p, a, b, .none⟩)
  | .delh t p a b => some (t, ⟨0x103, p, a, b, .none⟩)
  | .align t p a => some (t, ⟨0x104, p, .uimm a, .none, .none⟩)
  | .lkx t p i b tbl => some (t, ⟨0x200, p, .lookup i false, b, .table tbl⟩)
  | .lkp t p i b tbl => some (t, ⟨0x201, p, .lookup i false, b, .table tbl⟩)
  | .lkt t p i b tbl => some (t, ⟨0x202, p, .lookup i false, b, .table tbl⟩)
  | .lkw t p mask => some (t, ⟨0x208, p, .uimm mask, .none, .none⟩)
  | .upd t p i b => some (t, ⟨0x210, p, .lookup i false, b, .none⟩)
  | .learn t p tbl b c => some (t, ⟨0x211, p, .table tbl, b, c⟩)
  | .post t p tbl b n => some (t, ⟨0x212, p, .table tbl, b, .reg n⟩)
  | .br t d => some (t, ⟨0x300, 0, .none, .none, .disp d⟩)
  | .brc t p d => some (t, ⟨0x301, p, .none, .none, .disp d⟩)
  | .loop t p count body => some (t, ⟨0x302, p, .uimm count, .disp body, .none⟩)
  | .exit t p => some (t, ⟨0x310, p, .none, .none, .none⟩)
  | .abort t p => some (t, ⟨0x311, p, .none, .none, .none⟩)
  | .fwd t p => some (t, ⟨0x400, p, .none, .none, .none⟩)
  | .drop t p => some (t, ⟨0x401, p, .none, .none, .none⟩)
  | .repl t p => some (t, ⟨0x402, p, .none, .none, .none⟩)
  | .punt t p a => some (t, ⟨0x403, p, a, .none, .none⟩)
  | .recirc t p => some (t, ⟨0x404, p, .none, .none, .none⟩)
  | .mirror t p a => some (t, ⟨0x410, p, a, .none, .none⟩)
  | .slipDest t p a b => some (t, ⟨0x420, p, .uimm a, b, .none⟩)
  | .slipClass t p a b => some (t, ⟨0x421, p, a, b, .none⟩)
  | .slipEgr t p a b => some (t, ⟨0x422, p, a, b, .none⟩)
  | .cnt t p a b => some (t, ⟨0x500, p, a, b, .none⟩)
  | .meter t p a b c => some (t, ⟨0x501, p, a, b, c⟩)
  | .cread t p a b => some (t, ⟨0x502, p, a, b, .none⟩)
  | .tstamp t p a _ => some (t, ⟨0x600, p, a, .none, .none⟩)
  | .qdepth t p a b => some (t, ⟨0x601, p, a, b, .none⟩)
  | .ioam t p a b c => some (t, ⟨0x602, p, a, b, .uimm c⟩)
  | .sasel t p a => some (t, ⟨0x700, p, a, .none, .none⟩)
  | .balloc t p a b => some (t, ⟨0x701, p, a, b, .none⟩)
  | .bfree t p a => some (t, ⟨0x702, p, a, .none, .none⟩)
  | .nop t p => some (t, ⟨0x7FF, p, .none, .none, .none⟩)
  | _ => none

/-- The command that a word of the opcode table spells. The table gives none of its rows any bits, so no word spells a
command. -/
def decodeTableWord (_nbits _w : Nat) : Option Instr := none

end Sys2Proof
end

