-- ==== Sys2Proof/Config.lean ====
section
/-! DEFINITION. What one part fixes (fuses, stepping) and the values the manual leaves free. None of them has a body:
no proof can see what they are, and a claim holds whatever they are. -/

namespace Sys2Proof.Config

/-- True on stepping A0, false on B0 (R4, R421, Table 19.1). A constant of the part. -/
opaque isA0 : Bool

/-- Fuse identity word i of HUB_FUSE_ID; a constant of the part (16_startup, 7). -/
opaque fuseId : Nat → Word32

/-- The fused address of host port h (R338); a constant of the part. -/
opaque hpMac : Nat → BitVec 48

/-- Fused VDD_CORE voltage of OPk in mV, POW_OP_V (R373); a constant of the part. -/
opaque opVoltage : Nat → BitVec 16

/-- Life-log entries already burnt when the part leaves reset (R418); a constant of the part. -/
opaque lifeUsed : BitVec 8

/-- Life-log entry i burnt before the part leaves reset, as FIELD_RECORD shows it: EVENT, OBJECT, STATE (R418, R422); a
constant of the part. -/
opaque lifeEntry : Nat → BitVec 56

/-- The n-th draw of the WRED generator of a slice: true drops the packet (R235 gives only its probability).
FREE VALUE. -/
opaque wredDrop : Nat → Nat → Bool

/-- True where a network port is wired to a chip-to-module or chip-to-chip interface (R254); a constant of the board. -/
opaque c2m : Nat → Bool

/-- The n-th value a source without a stated result returns.
FREE VALUE. -/
opaque freeWord : Nat → Word64

/-- Bit i of the RS(240,224) parity of a codeword's 280 bytes: the manual names the code by its size only (R276).
FREE VALUE. -/
opaque rsParity : List Nat → Nat → Bool

/-- Which packet of every RATE a mirror session copies (R248 says one in RATE, and not which). FREE VALUE. -/
opaque mirrorPhase : Nat → Nat

end Sys2Proof.Config
end

