-- ==== Sys2Proof/Machine/State.lean ====
section
/-! DEFINITION. The state of the TN5120 as plain data, unit by unit in the manual's order, and the state under reset. -/

namespace Sys2Proof.Machine

/-- A sparse table: keys rising, no entry equal to the table's unlisted value (Machine/Store.lean gives the form). -/
abbrev SMap (α : Type) := List (Nat × α)

/-- The phases of Table 16.3 (R397). -/
inductive Phase where
  | coldWait | aonUp | refCheck | coreUp | memTrain | hostUp | loaded | checking | running | disabling | halted
  deriving DecidableEq, Repr

/-- What stopped, or is stopping, the core: loss of REFCLK (R372) or thermal shutdown (R389). -/
inductive StopCause where
  | refLoss | thermal
  deriving DecidableEq, Repr

/-- A transition of the DVFS sequencer (R374): its target, whether it raises, whether a voltage read-back is awaited and
for how many ticks. -/
structure Transition where
  target  : Nat
  raising : Bool
  waiting : Bool
  age     : Nat
  deriving DecidableEq, Repr

/-- The current limiter of one rail (R382): the grant and ceiling it asks, consecutive windows below 15/16 of LIMIT, the
sum and number of the polls of this window, and the windows and windows above LIMIT of this duty period (Table 17.2). -/
structure RailLim where
  grant : Nat
  ceil  : Nat
  below : Nat
  sum   : Nat
  polls : Nat
  wins  : Nat
  above : Nat
  deriving DecidableEq, Repr

/-- Reset, phase and clocks (chapters 15 and 16). -/
structure Boot where
  inReset    : Bool
  phase      : Phase
  straps     : BitVec 10
  windowOpen : Bool
  proving    : Bool
  proven     : Bool
  refGood    : Nat
  frefGood   : Nat
  nodesReady : Bool
  stop       : Option StopCause
  stopAge    : Nat
  haltedBy   : Option StopCause
  deriving DecidableEq, Repr

/-- The sequencer, the limiters, the sensors and the throttle log (chapter 15). A ceiling of 7 and a grant of 8 mean
that the limiter asks nothing. hot marks the sensors whose last sample was 115 °C or more, words the instruction words
each cluster issued since the last energy update, jobSum the power that the VDD_CORE and VDD_SRAM slots showed in the polls since
then, gate the block of a gate request and its age in ticks. -/
structure Power where
  k            : Nat
  nextK        : Nat
  op           : Nat
  trans        : Option Transition
  coreSlotSeen : Bool
  raiseBlocked : Bool
  stretch      : Nat
  freeTicks    : Nat
  stepHeld     : Bool
  droopLeft    : Nat
  extLow       : Bool
  capCeil      : Nat
  capGrant     : Nat
  capLowering  : Bool
  capFloor     : Bool
  rails        : SMap RailLim
  dutyTicks    : Nat
  thermCeil    : Nat
  thermGrant   : Nat
  thermOver    : Bool
  powerSum     : Nat
  powerPolls   : Nat
  powerW       : Nat
  missed       : SMap Nat
  hot          : BitVec 22
  hotDue       : Bool
  logActive    : BitVec 16
  words        : SMap Nat
  jobSum       : Nat
  gate         : Option (Nat × Nat)
  deriving DecidableEq, Repr

/-- The Almanac (chapter 2): tick count, G of this tick and of the next, the tick-set and sync state, the REFCLK edges
by which the boundary that ends the tick is displaced, and the displacement of the RESYNC tick to come and whether this
tick is that one (R58). -/
structure Almanac where
  tick       : BitVec 48
  grant      : Nat
  next       : Nat
  setArmed   : Option (BitVec 48)
  pulseSeen  : Bool
  syncBad    : Nat
  syncLost   : Bool
  displaced  : Int
  resyncNext : Option Int
  resyncTick : Bool
  deriving DecidableEq, Repr

/-- A buffer held by a packet: pool and buffer number (R189, R190). -/
structure Buf where
  pool : Nat
  num  : Nat
  deriving DecidableEq, Repr

/-- An input stream of R147. -/
inductive Stream where
  | port (p : Nat) | recirc (slice : Nat) | inject (hp : Nat)
  deriving DecidableEq, Repr

/-- How a packet leaves for a host port (R152): punt at ingress, punt at egress, mirror copy, FWD to the host. -/
inductive PuntKind where
  | ingress | egress | mirror | fwd
  deriving DecidableEq, Repr

/-- A packet or copy: its frame without FCS, its call slip (byte o at bits [8o + 7 : 8o]), its extract, its buffers and
what travels beside it. ord is its place in its input stream (R147), deq its place among the packets dequeued, txO and
txTick the start of its transmission, txAt its transmit stamp and byp the BYPASS contexts (32,768 x slice + index) that count it
when its end comes; orig names the original whose other cells a copy shares (R245);
admitted says that it carries an admission stamp, trunc that a mirror session truncated it. -/
structure Pkt where
  id       : Nat
  ord      : Nat
  deq      : Nat
  queue    : Option Nat
  txO      : BitVec 64
  txTick   : Nat
  data     : List Byte
  ended    : Bool
  bad      : Option Nat
  slip     : BitVec 1024
  extract  : BitVec 1024
  bufs     : List Buf
  stream   : Stream
  rxPort   : Nat
  slice    : Nat
  rxStamp  : Option (BitVec 64 × BitVec 64 × Nat)
  tsId     : Option (BitVec 16)
  oneStep  : Bool
  noRun    : Bool
  drain    : Nat
  origLen  : Nat
  session  : Option Nat
  puntKind : Option PuntKind
  group    : Option Nat
  orig     : Option Nat
  stomp    : Bool
  admitted : Bool
  trunc    : Bool
  extDev   : Option Nat
  txAt     : BitVec 64
  byp      : List Nat
  deriving DecidableEq, Repr

/-- Where a lookup hit lies (R125): wing, byte offset of the entry in the wing, and the entry's key bits. -/
structure Loc where
  wing  : Nat
  byte  : Nat
  table : Nat
  key   : Nat
  deriving DecidableEq, Repr

/-- The outcome of a lookup: hit with result and location, miss, or error (R123, R124). -/
inductive LkOut where
  | hit (res : BitVec 128) (loc : Option Loc)
  | miss
  | err
  deriving DecidableEq, Repr

/-- One lookup register Li (R63, R123, R124): its value, whether it is valid, the location of its hit, the lookup
outstanding and whether its result has arrived. -/
structure LSlot where
  val     : BitVec 128
  valid   : Bool
  hit     : Bool
  loc     : Option Loc
  issued  : Option (Nat × LkOut)
  arrived : Bool
  deriving DecidableEq, Repr

/-- The fate of a run (R68, R129). -/
inductive Fate where
  | exit | fwd | drop | repl | punt | recirc
  deriving DecidableEq, Repr

/-- A posted write on its way to the Stacks (R79): address, bytes, add mode, quadrant of the run. -/
structure PostW where
  addr : Nat
  data : List Byte
  add  : Bool
  quad : Nat
  deriving DecidableEq, Repr

/-- One entry of a commit buffer (Table 3.3). -/
inductive CEntry where
  | upd (loc : Loc) (res : Nat)
  | learn (table : Nat) (key res : Nat)
  | cnt (i : Nat) (n : BitVec 64)
  | meter (m : Nat) (c p : Nat)
  | post (w : PostW)
  | postErr
  | balloc (b : Buf)
  | bfree (pool num : Nat)
  | mirror (session : Nat)
  | fate (f : Fate)
  deriving DecidableEq, Repr

/-- The states of a thread (R60). -/
inductive ThState where
  | free | bound | ready | blocked | retired
  deriving DecidableEq, Repr

/-- A loop in progress (R128): first body word, first word after the body, passes still to begin. -/
structure Loop where
  first : Nat
  after : Nat
  left  : Nat
  deriving DecidableEq, Repr

/-- One hardware thread and the run it holds (R60, R63, R72). -/
structure Thread where
  state   : ThState
  egress  : Bool
  g       : Vector (BitVec 64) 32
  t       : BitVec 4
  z       : Bool
  c       : Bool
  n       : Bool
  v       : Bool
  l       : Vector LSlot 4
  win     : List Byte
  tail    : List Byte
  slip    : BitVec 1024
  pc      : Nat
  wcet    : Nat
  issued  : Nat
  waiting : BitVec 4
  loop    : Option Loop
  buf     : List CEntry
  taken   : List Buf
  looks   : List (Nat × Nat)
  pkt     : Option Pkt
  binding : Option Pkt
  bindEg  : Bool
  bindPc  : Nat
  bindW   : Nat
  order   : Nat
  deriving DecidableEq, Repr

/-- The states of a cluster (SCR_CL_STATUS.STATE; R91). -/
inductive ClState where
  | empty | stopped | running | failed | checking
  deriving DecidableEq, Repr

/-- A loaded Codex (Table 3.5): its version, CRC and nanowords. -/
structure Codex where
  version : Word32
  crc     : Word32
  words   : List (BitVec 384)
  deriving DecidableEq, Repr

/-- An entry point of a program image (Table 3.4): kind 0-3, start, declared and computed WCET. -/
structure Entry where
  index    : Nat
  kind     : Nat
  start    : Nat
  wcet     : Nat
  computed : Nat
  deriving DecidableEq, Repr

/-- A loaded program image (Table 3.4). -/
structure Program where
  imageId : Word32
  crc     : Word32
  caps    : Word32
  minCodex : Word32
  count   : Nat
  entries : List Entry
  words   : List (BitVec 64)
  deriving DecidableEq, Repr

/-- One cluster: its state, its control stores, the physical Scribe behind each logical one (64 + i is a spare; a
logical Scribe in noPhys has none), its machine-check history and what takes effect at the next boundary. Both copies of a
store are held as the bits by which they differ from the image, with their parity bits above (R97): word a under a, nanoword i
under 16,384 + i. scrubAt is the word that the scrubber reads next and scrubTick the tick after the one in which its pass began (R102). -/
structure Cluster where
  state     : ClState
  codex     : Option Codex
  prog      : Option Program
  phys      : SMap Nat
  noPhys    : List Nat
  sparesOut : Nat
  mcFirst   : SMap Nat
  mainErr   : SMap (BitVec 396)
  shadErr   : SMap (BitVec 396)
  rewrite   : List Nat
  scrubAt   : Nat
  scrubTick : Nat
  stopNext  : Bool
  emptyNext : Bool
  runNext   : Bool
  ramp      : Option Nat
  deriving DecidableEq, Repr

/-- A frame arriving on a cut-through port whose end is still to come (R135): its packet, the bytes come so far, the BYPASS
context it passes (Table 11.1), and its first bytes if it is a control frame (R257). -/
structure RxPart where
  pkt : Nat
  got : Nat
  sa  : Option Nat
  ctl : Option (List Byte)
  deriving DecidableEq, Repr

/-- A packet at a cipher point of a slice (R304): at the recirculation point or at egress, and whether its ESP pass has
been made or skipped. -/
structure CipJob where
  pkt     : Pkt
  recirc  : Bool
  espDone : Bool
  deriving DecidableEq, Repr

/-- Accession of one slice (chapter 5): its three inputs, the Scribe used last, the egress packets waiting for a slot,
the frames waiting to be sent, packets that have arrived at its queues, the recirculated packets placed this tick, and
whether Accession has placed in this tick. hi and lo are the most and the fewest bytes that the admission FIFO has held in
this tick (R361). -/
structure Slice where
  fifo     : List Pkt
  cip      : List CipJob
  inj      : List Pkt
  recq     : List Pkt
  last     : Nat
  lastEg   : Nat
  placed   : Nat
  xoff     : Bool
  egress   : List Pkt
  done     : List Pkt
  arrived  : List Pkt
  accDone  : Bool
  hi       : Nat
  lo       : Nat
  deriving DecidableEq, Repr

/-- A learn request (R174, R178, R185): table, key, result, failed retries so far, the tick of its last attempt, and the
number of drains begun when it was committed. -/
structure Learn where
  table : Nat
  key   : Nat
  res   : Nat
  fails : Nat
  tick  : Nat
  drain : Nat
  deriving DecidableEq, Repr

/-- A move record or a freeze (R177): table, key, opening tick, count. -/
structure MoveRec where
  table : Nat
  key   : Nat
  tick  : Nat
  count : Nat
  deriving DecidableEq, Repr

/-- One wing (chapter 6): lock bits, learn queue, retry list, move records, freezes (tick is the end of the freeze),
the tick this sweep
began and the first unit it has still to visit, whether SWEEP_PERIOD was written since the last boundary, repair units used, units without repair, units found uncorrectable since the last boundary, learn
attempts of this tick, ticks of uncorrectable errors. -/
structure Wing where
  locks     : List Nat
  learnQ    : List Learn
  retry     : List Learn
  moves     : List MoveRec
  frozen    : List MoveRec
  sweepTick : Nat
  sweepAt   : Nat
  sweepLate : Bool
  sweepNew  : Bool
  repaired  : Nat
  dead      : List Nat
  bad       : List Nat
  attempts  : Nat
  ueccTick  : List Nat
  deriving DecidableEq, Repr

/-- One buffer pool (chapter 7): the place of the oldest entry of its free ring and how many entries the ring holds, the
entries themselves standing in device memory (R195); unissued buffers, the four caches, outstanding bursts, and the state
words of an ODB pool (R201). hi and lo are the most and the fewest of its buffers that have been in use in this tick (R361). -/
structure Pool where
  head      : Nat
  count     : Nat
  next      : Nat
  caches    : SMap (List Nat)
  bursts    : List Nat
  words     : SMap Byte
  hi        : Nat
  lo        : Nat
  deriving DecidableEq, Repr

/-- A free of a page-pool buffer whose state word is being read from the Stacks (R201). -/
structure FreeChk where
  pool : Nat
  num  : Nat
  cls  : Nat
  quad : Nat
  host : Bool
  deriving DecidableEq, Repr

/-- The Stacks (chapter 7): the spare stripe behind a lost one (1 + its number), ticks of each port's uncorrectable
errors, the pause of shelving and recall, lost ports whose stripes are still to be remapped and whose pages are still to
be marked, posted writes on their way, ports whose next host read is uncorrectable, ticks counted as RECALL_LATE, and the
quadrants whose ports are being retrained. -/
structure Stacks where
  remap      : SMap Nat
  uncorr     : SMap (List Nat)
  paused     : Bool
  remapping  : List Nat
  marking    : List Nat
  posts      : List PostW
  readFail   : List Nat
  recallLate : Nat
  training   : List Nat
  deriving DecidableEq, Repr

/-- A cell inside the core (Table 8.1): the packet it belongs to, its place in it, its header fields, the ODB cell it stands in
and, for a cell from another device, its data bytes. copy says that it is one of the replication engine's copies. -/
structure Cell where
  pkt   : Nat
  first : Bool
  last  : Bool
  expr  : Bool
  tc    : Nat
  seq   : BitVec 16
  srcDev : Nat
  srcSl : Nat
  dstSl : Nat
  kind  : Nat
  plane : Nat
  tick  : BitVec 8
  buf   : Option Buf
  copy  : Bool
  data  : List Byte
  deriving DecidableEq, Repr

/-- One plane (R216, R224, R227): state 0-3, cause, output queue, cells accepted and delivered in this tick, failures of its
error window, the consecutive ticks in which each egress slice has missed its heartbeat and the slices that have missed it in
this one, whether it leaves the spray set at the next boundary, the tick its test began, whether that has seen a failure, and
whether it ends at the next boundary. -/
structure Plane where
  state  : Nat
  cause  : Nat
  q      : List Cell
  taken  : Nat
  sent   : Nat
  errs   : List Nat
  miss   : SMap Nat
  missed : BitVec 8
  leave  : Bool
  tested : Nat
  failed : Bool
  ending : Bool
  deriving DecidableEq, Repr

/-- A resequencer context (R220 to R222): expected number (none until the first cell, R407), tick its gap opened,
held cells. -/
structure Reseq where
  e    : Option (BitVec 16)
  gap  : Option Nat
  held : List Cell
  deriving DecidableEq, Repr

/-- A packet on its way through the core: its resequencer context, the number of its first cell and how many cells it has. Of
a frame taken before its end, head cells went first: more says that the others are still to come, early that the packet
stands past the core already and waits for them, rest and restBufs are their bytes and ODB cells. -/
structure Transit where
  pkt      : Pkt
  kind     : Nat
  ctx      : Nat
  first    : BitVec 16
  cells    : Nat
  head     : Nat
  more     : Bool
  early    : Bool
  rest     : List Byte
  restBufs : List Buf
  deriving DecidableEq, Repr

/-- The switch core (chapter 8): sprayJ counts the cells of each source in this tick (slices 0-7, fabric framing 8-11,
replication engine 12), held the cells that a source could not send in this tick, asm the cells released so far of a packet
from another device. -/
structure Core where
  planes   : SMap Plane
  spray    : BitVec 16
  seqs     : SMap (BitVec 16)
  ctx      : SMap Reseq
  sprayJ   : SMap Nat
  held     : List (Nat × Cell)
  transit  : List Transit
  asm      : SMap (List Byte)
  flushEnd : Nat
  fabEnd   : Nat
  waitHand : List Pkt
  deriving DecidableEq, Repr

/-- A Stacks page holding shelved cells of a queue (R210, R211). -/
structure Page where
  buf     : Buf
  cells   : Nat
  lost    : Bool
  recalling : Bool
  deriving DecidableEq, Repr

/-- One egress queue (R210, R234, R235): its packets in order, its cells in the head, in pages and in the tail, and
the WRED averages of its depth and of its tail (R213). hi and lo are the greatest and the least depth it has had in this
tick (R361). -/
structure Queue where
  pkts  : List Pkt
  head  : Nat
  pages : List Page
  tail  : Nat
  shelv : Bool
  avg   : Rat
  tavg  : Rat
  retry : Bool
  hi    : Nat
  lo    : Nat
  deriving DecidableEq, Repr

/-- Token buckets in 1/6,250 byte, which is 8 kb/s for one tick (R233, R240). -/
structure Bucket where
  c : Int
  p : Int
  deriving DecidableEq, Repr

/-- A copy waiting in the residue, or waiting to be made (R245 to R247). -/
structure Copy where
  pkt   : Pkt
  queue : Nat
  port  : Nat
  group : Nat
  born  : Nat
  deriving DecidableEq, Repr

/-- An original whose group entries are still to be read (R245). -/
structure ReplJob where
  pkt   : Pkt
  group : Nat
  entry : Nat
  born  : Nat
  deriving DecidableEq, Repr

/-- A mirror copy to be made (R248, R249). -/
structure MirJob where
  session : Nat
  pkt     : Pkt
  deriving DecidableEq, Repr

/-- The cells that the copies of a replicated original share (R245, R247), and how many copies and jobs still need
them; port and cls are what R239 counts them under. -/
structure Shared where
  bufs  : List Buf
  refs  : Nat
  slice : Nat
  port  : Nat
  cls   : Nat
  deriving DecidableEq, Repr

/-- A virtual output queue (R242): its packets, and the cells of the first one already released. -/
structure Voq where
  pkts : List Pkt
  sent : Nat
  deriving DecidableEq, Repr

/-- Queues, schedulers, replication and mirroring (chapter 8). meterNew lists the meters written since the last boundary
(R240); resHi and resLo are the most and the fewest copies that the residue has held in this tick (R361); draws counts the draws of each slice's generator (R235), retried and mirTurn say that in
this tick the residue has been retried (R246) and that the turn of the mirror copies has come (R250), flushEnd lists the ports
whose flush is complete (R236). -/
structure Tm where
  queues   : SMap Queue
  shapers  : SMap Bucket
  deficit  : SMap Int
  rr       : SMap Nat
  meters   : SMap Bucket
  hostQ    : SMap (List Pkt)
  voq      : SMap Voq
  shared   : SMap Shared
  residue  : List Copy
  resHi    : Nat
  resLo    : Nat
  jobs     : List ReplJob
  mirJobs  : List MirJob
  mirSeen  : SMap Nat
  copies   : Nat
  meterNew : List Nat
  draws    : SMap Nat
  retried  : Bool
  mirTurn  : Bool
  flushing : List Nat
  flushEnd : List Nat
  flushed  : SMap Nat
  depthAt  : SMap Nat
  deriving DecidableEq, Repr

/-- The states of an Ethernet port (Table 9.3). -/
inductive PortState where
  | disabled | an | training | aligning | up | hold | fault
  deriving DecidableEq, Repr

/-- An Ethernet port (chapter 9): its state and the one it enters at the next boundary, tick HOLD began, faults, pauses received,
with the tick in which each can end, and sent, the frame on the wire. -/
structure Port where
  state    : PortState
  due      : Option PortState
  holdAt   : Nat
  remoteF  : Bool
  localF   : Bool
  rxPaused : BitVec 8
  pauseEnd : SMap Nat
  txPause  : BitVec 8
  sent     : BitVec 8
  toCipher : List Pkt
  wire     : List Pkt
  deriving DecidableEq, Repr

/-- The eye scan of an octet (R266 to R268): 0 idle, 1 running, 2 done, 3 aborted. -/
structure Eye where
  state  : Nat
  cause  : Nat
  points : Nat
  row    : List Word32
  deriving DecidableEq, Repr

/-- A recovered-clock output (R269, R270): squelched, held low around a change, the last tick in which its lane held no lock, the
ratio of its divider and the frequency that it carries in kHz, 0 while it is low. -/
structure Rclk where
  squelched : Bool
  changing  : Bool
  since     : Nat
  ratio     : Nat
  khz       : Nat
  deriving DecidableEq, Repr

/-- The states of a fabric lane (Table 10.5). -/
inductive LaneState where
  | disabled | training | aligning | testing | inService | down
  deriving DecidableEq, Repr

/-- A fabric lane (chapter 10): its state and the one it enters at the next boundary with its CAUSE; the line bits received behind
the last frame boundary, the bits by which the next one is delayed (R282), the commas found in a row; the line bits until the next
frame that it sends begins, and the cells and control messages for the frames to come. -/
structure Lane where
  state     : LaneState
  due       : Option (LaneState × Nat)
  ver       : Nat
  cause     : Nat
  partFe    : Bool
  partDev   : Nat
  partLane  : Nat
  rtt       : BitVec 24
  last16    : List Bool
  testTicks : Nat
  idleTicks : Nat
  passed    : Bool
  errs      : List Nat
  reach     : BitVec 64
  partReady : Bool
  inSpray   : Bool
  graceful  : Option Nat
  rx        : List Bool
  slip      : Nat
  commas    : Nat
  txBits    : Nat
  slots     : List (List Byte)
  msgs      : List (List Byte)
  deriving DecidableEq, Repr

/-- The credit context of a source (R295): AVAILABLE in cells (one credit is 16) above its value at ENABLE, LAST, and
whether the answer to a reset is awaited. -/
structure SrcCredit where
  avail : Int
  last  : BitVec 16
  wait  : Bool
  deriving DecidableEq, Repr

/-- The credit context of a destination (R295): TOTAL and cells toward the next credit. -/
structure DstCredit where
  total : BitVec 16
  cells : Nat
  deriving DecidableEq, Repr

/-- Fabric links (chapter 10): init is CREDIT_INIT as ENABLE found it, resets the devices a CREDIT_RESET waits for, had the devices
whose usable set has not been empty, gone those of them whose usable set has been empty since; rr the virtual output queue of each
class served last. -/
structure Fabric where
  lanes : SMap Lane
  init  : Nat
  had   : List Nat
  gone  : List Nat
  rr    : SMap Nat
  src   : SMap SrcCredit
  dst   : SMap DstCredit
  resets : List Nat
  deriving DecidableEq, Repr

/-- A key slot (R308): its bytes as a number, most significant byte first, and whether it was written. -/
structure Key where
  val     : BitVec 256
  written : Bool
  deriving DecidableEq, Repr

/-- A cut-through frame whose ICV is still to be checked (R311): its packet, its context as the pass found it, its PN,
the key latched, the bytes received, the plaintext bytes passed on, and whether its end has arrived. -/
structure IcvWait where
  pkt   : Nat
  port  : Nat
  ctx   : Nat
  sa    : BitVec 1536
  pn    : Nat
  key   : BitVec 256
  frame : List Byte
  given : Nat
  ended : Bool
  deriving DecidableEq, Repr

/-- The cipher engine (chapter 11): SA contexts of 192 bytes by slice x 32,768 + index (word w at bits 32w), key slots,
KEK slots at 262,144 + i, key data registers, and what takes effect at the next boundary. -/
structure Cipher where
  ctx     : SMap (BitVec 1536)
  keys    : SMap Key
  keyData : SMap Word32
  ctxNext : List (Nat × BitVec 1536)
  keyNext : List (Nat × Key)
  cmdNext : List (Nat × Nat)
  icv     : SMap IcvWait
  deriving DecidableEq, Repr

/-- A transmit timestamp queue entry (Table 12.2). -/
structure Tsq where
  id   : BitVec 16
  port : Nat
  ns   : Word32
  sub  : BitVec 8
  deriving DecidableEq, Repr

/-- A tick that has passed, as a receive stamp goes by it (R326, R327): O at its end, how far O went in it, J and the active
domain. -/
structure TimeMark where
  o      : BitVec 64
  adv    : BitVec 64
  j      : BitVec 64
  active : Nat
  deriving DecidableEq, Repr

/-- Time (chapter 12): the two domains with their servo terms, the output timescale's residue R over the active domain,
the cumulative jump J, armed offsets, T of the scheduled pulse outputs, the pins whose ARM was written since the last
boundary, the output pins that are high with the time from the last boundary to their fall in 2^-32 ns, and the last ticks,
newest first. -/
structure Time where
  d0     : BitVec 64
  d1     : BitVec 64
  a0     : Int
  a1     : Int
  i0     : Int
  i1     : Int
  active : Nat
  r      : Int
  slew   : Bool
  j      : BitVec 64
  jLate  : BitVec 64
  diff   : BitVec 64
  ofs0   : Option (BitVec 64)
  ofs1   : Option (BitVec 64)
  tsq    : List Tsq
  pulse  : SMap Word32
  arm    : List Nat
  high   : SMap Nat
  past   : List TimeMark
  deriving DecidableEq, Repr

/-- A DCP response (R342, R343): the request's header, ACK or NAK status, detail and payload, and the EtherType it leaves
with where that is an earlier one (R338). -/
structure Resp where
  hdr     : OpHdr
  status  : Nat
  detail  : Word32
  payload : List Byte
  etype   : Option (BitVec 16)
  deriving DecidableEq, Repr

/-- An operation accepted and not yet complete (R347). -/
structure OpenOp where
  seq : Word32
  hp  : Nat
  mac : BitVec 48
  deriving DecidableEq, Repr

/-- A DCP session (R344 to R347): the agreed version, H, the response cache, the operations in progress, the shadows of
upper words (R15), and whether an operation of it completed since the last boundary. -/
structure Session where
  isOpen : Bool
  ver    : Nat
  h      : Word32
  cache  : List Resp
  prog   : List OpenOp
  shadow : List (Nat × Word32)
  fresh  : Bool
  deriving DecidableEq, Repr

/-- What a fence, an ENABLE, a DISABLE, a TAKEOVER or a start action waits for: a drain since a tick, with its number; a
start action for the checks of the clusters of a mask, with cluster, reason and detail of the lowest refused one. -/
inductive Wait where
  | fence | drain (since no : Nat) | enable | disable | takeover (epoch : Word32)
  | start (mask : Word32) (bad : Option (Nat × Nat × Nat))
  deriving DecidableEq, Repr

/-- An operation that completes later (R35, R185, R345, R403, R408, R90): its place in the order of acceptance, and
whether the boundary after the operations before it has passed. -/
structure Waiting where
  hdr    : OpHdr
  what   : Wait
  no     : Nat
  passed : Bool
  deriving DecidableEq, Repr

/-- A notice (R351): number, type, body, tick and ns at generation. -/
structure Notice where
  num  : Word32
  type : BitVec 16
  tick : Word32
  ns   : Word32
  body : List Byte
  deriving DecidableEq, Repr

/-- The image staging buffer of LOAD_IMAGE (R349). -/
structure Staging where
  kind  : Nat
  mask  : Word32
  total : Nat
  bytes : List Byte
  deriving DecidableEq, Repr

/-- An operation of a DCP frame (R342). One that the engine has accepted and holds behind a FENCE (R35) carries its place
in the order of acceptance. -/
structure DcpOp where
  hdr     : OpHdr
  opcode  : Nat
  payload : List Byte
  no      : Nat
  deriving DecidableEq, Repr

/-- A host port (R336, R340): its state and the one it enters at the next boundary, and the tick of its last DCP frame. -/
structure HostPort where
  state   : PortState
  due     : Option PortState
  lastDcp : Option Nat
  deriving DecidableEq, Repr

/-- Host ports and the control protocol (chapter 13). failTo is the cause of a failover due at the next boundary; accepted holds the operations behind a FENCE; check is the outcome of
the enable check, reason 0 where it passed; drainAt, drained the tick of DISABLING's first boundary and whether its drain
has ended; drainNo, accNo the drains begun and the operations accepted. -/
structure Dcp where
  sessions : SMap Session
  warden   : Option Nat
  epoch    : Word32
  accepted : List DcpOp
  waiting  : List Waiting
  resps    : List Resp
  notices  : List Notice
  sentLog  : List Notice
  nextNum  : Word32
  lostNow  : Nat
  alert    : Bool
  staging  : Option Staging
  active   : Nat
  activeTo : Option Nat
  failTo   : Option Nat
  hp0      : HostPort
  hp1      : HostPort
  check    : Option (Nat × Nat)
  drainAt  : Nat
  drained  : Bool
  drainNo  : Nat
  accNo    : Nat
  deriving DecidableEq, Repr

/-- The values latched by a Chronicle snapshot and not yet written (R363, R364), and whether the record has been begun. -/
structure Snap where
  begun : Bool
  tick  : BitVec 48
  ns    : Word32
  dom   : Nat
  since : Nat
  thr   : SMap (BitVec 64)
  ctr   : SMap (BitVec 64)
  hist  : SMap (BitVec 64)
  deriving DecidableEq, Repr

/-- Counters, histograms, threshold counters and the Chronicle (chapter 14): the threshold counters whose configuration
was written since the last boundary, the snapshot whose record is being written, the tick of the last snapshot or of the entry into
RUNNING after it, and whether no snapshot has been taken since that entry (KL-04). -/
structure Counters where
  ctr      : SMap (BitVec 64)
  hist     : SMap (BitVec 64)
  thr      : SMap (BitVec 64)
  thrClear : List Nat
  snap     : Option Snap
  lastSnap : Option Nat
  fresh    : Bool
  deriving DecidableEq, Repr

/-- A Vigil log entry (R418). -/
structure VigEntry where
  tick   : BitVec 48
  event  : BitVec 16
  state  : Nat
  object : Word32
  deriving DecidableEq, Repr

/-- Vigil (chapter 17). The life log holds what has been burnt, burning what waits for its burn. -/
structure Vigil where
  state   : Nat
  reasons : BitVec 7
  replace : Bool
  log     : List VigEntry
  life    : List VigEntry
  burning : List VigEntry
  seen    : List (Nat × Nat)
  ctrlTick : SMap (List Nat)
  odbTick : List Nat
  tap     : BitVec 8
  deriving DecidableEq, Repr

/-- A training frame (R285): the sender's DEV_ID and lane number, whether it is a fabric element, its range of versions, RATE,
framing, and the lane number that it receives. -/
structure TrainFrame where
  dev     : Nat
  lane    : Nat
  fe      : Bool
  minVer  : Nat
  maxVer  : Nat
  rate    : Nat
  compact : Bool
  heard   : Nat
  deriving DecidableEq, Repr

/-- What the part sends out: frames on a network port, frames on a host port, pause frames, answers on SMBus, the
TAP's selected function, pulses on TICK_OUT, the edges of output pins, link frames and training frames of a fabric lane, and what a port advertises in auto-negotiation. The model's own record, not the spec's. -/
inductive Out where
  | frame (port : Nat) (data : List Byte) (stomped : Bool)
  | host (hp : Nat) (data : List Byte) (stomped : Bool)
  | pause (port : Nat) (prio : BitVec 8) (time : Nat)
  | smbus (bytes : List Byte)
  | smbusNack
  | tap (opcode : BitVec 8) (idcode : Option Word32)
  | pulse (pin : Nat)
  | pin (k : Nat) (level : Bool)
  | link (lane : Nat) (line : List Byte)
  | training (lane : Nat) (frame : TrainFrame)
  | avs (slot : Nat) (mv : Nat)
  | advert (port lanes rate : Nat) (fec : Option Nat)
  deriving DecidableEq, Repr

/-- Why a command ends the run. No command of this model raises it: every access is range-checked before it is made
(R26), and an access outside is refused with a NAK, which is a next state. SAFE. -/
inductive Fault where
  /-- A device memory address outside Table 1.4 (R25). Raised by no command: R26 refuses such transfers. SAFE. -/
  | absentAddress (addr : Nat)
  deriving DecidableEq, Repr

/-- Why a command has no meaning here. -/
inductive Refusal where
  /-- Not modelled yet; raised only by an arm of exec. SAFE. -/
  | notModelled (mnemonic : String)
  /-- A Dinum word whose operands or predicate R106, R108, R113 or R117 refuse: no store ever holds it. Raised by the
  Dinum meanings. SAFE. -/
  | badWord (nanoword : Nat)
  /-- A private TAP instruction while TEST_MODE_N is low (R2, R424). Raised by TAP_INSTRUCTION. SAFE. -/
  | privateTest (opcode : Nat)
  deriving DecidableEq, Repr

/-- The whole machine. Registers are held by control address: regs is what a READ returns for every field a write or
an event sets, and dp is the data plane's view of the written fields, which follows regs at tick boundaries (R16,
R33). issuer is 1 more than the thread of each Scribe that issued last (R61). mem is device memory (R25). Out, draws and nextId are the model's own. -/
structure State where
  regs     : SMap Word32
  dp       : SMap Word32
  wideHeld : List (Nat × Word32)
  mem      : List Host.Cell
  boot     : Boot
  power    : Power
  alm      : Almanac
  threads  : SMap Thread
  halted   : List Nat
  issuer   : SMap Nat
  spareIn  : List (Nat × Nat)
  clusters : SMap Cluster
  slices   : SMap Slice
  rx       : SMap RxPart
  dir      : SMap (List Word32)
  dirNext  : List (Nat × List Word32)
  wings    : SMap Wing
  pools    : SMap Pool
  freeChk  : List FreeChk
  gddr     : Stacks
  core     : Core
  tm       : Tm
  ports    : SMap Port
  eyes     : SMap Eye
  rclkA    : Rclk
  rclkB    : Rclk
  fabric   : Fabric
  cipher   : Cipher
  time     : Time
  dcp      : Dcp
  ctrs     : Counters
  vigil    : Vigil
  out      : List Out
  nextId   : Nat
  retired  : Nat
  free     : Nat
  pending  : List Instr
  deriving DecidableEq, Repr

/-- The strap-independent part of Boot under RESET_N low (R396). Whether a window runs is decided at its release. -/
def Boot.reset : Boot :=
  { inReset := true, phase := .coldWait, straps := 0, windowOpen := false, proving := false, proven := false,
    refGood := 0, frefGood := 0, nodesReady := false, stop := none, stopAge := 0, haltedBy := none }

/-- The sequencer and limiters under reset: core stopped, nothing limited (chapter 15). -/
def Power.reset : Power :=
  { k := 0, nextK := 0, op := 0, trans := none, coreSlotSeen := false, raiseBlocked := false, stretch := 0,
    freeTicks := 4, stepHeld := false, droopLeft := 0, extLow := false, capCeil := 7, capGrant := 8,
    capLowering := false, capFloor := false, rails := [], dutyTicks := 0, thermCeil := 7, thermGrant := 8,
    thermOver := false, powerSum := 0, powerPolls := 0, powerW := 0, missed := [], hot := 0, hotDue := false,
    logActive := 0, words := [], jobSum := 0, gate := none }

/-- A rail whose limiter asks nothing. -/
def RailLim.reset : RailLim := { grant := 8, ceil := 7, below := 0, sum := 0, polls := 0, wins := 0, above := 0 }

/-- The Almanac under reset: tick count 0 (ALM_TICK_LO, ALM_TICK_HI), grant 0 (ALM_GRANT). -/
def Almanac.reset : Almanac :=
  { tick := 0, grant := 0, next := 0, setArmed := none, pulseSeen := false, syncBad := 0, syncLost := false,
    displaced := 0, resyncNext := none, resyncTick := false }

/-- A lookup register as a run begins: 0 and not valid (Table 3.1). -/
def LSlot.fresh : LSlot := { val := 0, valid := false, hit := false, loc := none, issued := none, arrived := false }

/-- A free thread (R60): no run, no binding. -/
def Thread.idle : Thread :=
  { state := .free, egress := false, g := Vector.replicate 32 0, t := 0, z := false, c := false, n := false,
    v := false, l := Vector.replicate 4 LSlot.fresh, win := [], tail := [], slip := 0, pc := 0, wcet := 0, issued := 0,
    waiting := 0, loop := none, buf := [], taken := [], looks := [], pkt := none, binding := none, bindEg := false,
    bindPc := 0, bindW := 0, order := 0 }

/-- A cluster under reset: EMPTY, logical Scribe i on physical Scribe i (R59, R91). -/
def Cluster.reset : Cluster :=
  { state := .empty, codex := none, prog := none, phys := [], noPhys := [], sparesOut := 0, mcFirst := [], mainErr := [],
    shadErr := [], rewrite := [], scrubAt := 0, scrubTick := 0,
    stopNext := false, emptyNext := false, runNext := false, ramp := none }

/-- A slice with nothing in it. -/
def Slice.reset : Slice :=
  { fifo := [], cip := [], inj := [], recq := [], last := 255, lastEg := 255, placed := 0, xoff := false, egress := [], done := [], arrived := [],
    accDone := false, hi := 0, lo := 0 }

/-- A wing with no lock, no request and all its repair units (R415). -/
def Wing.reset : Wing :=
  { locks := [], learnQ := [], retry := [], moves := [], frozen := [], sweepTick := 0, sweepAt := 0, sweepLate := false, sweepNew := false, repaired := 0,
    dead := [], bad := [], attempts := 0, ueccTick := [] }

/-- A pool with nothing issued and nothing cached. -/
def Pool.reset : Pool := { head := 0, count := 0, next := 0, caches := [], bursts := [], words := [], hi := 0, lo := 0 }

/-- The Stacks before training. -/
def Stacks.reset : Stacks :=
  { remap := [], uncorr := [], paused := false, remapping := [], marking := [], posts := [], readFail := [],
    recallLate := 0, training := [] }

/-- A plane in service (PL_STATUS, reset 0). -/
def Plane.reset : Plane :=
  { state := 0, cause := 0, q := [], taken := 0, sent := 0, errs := [], miss := [], missed := 0, leave := false, tested := 0,
    failed := false, ending := false }

/-- A resequencer context that takes its first cell as the expected one (R407). -/
def Reseq.reset : Reseq := { e := none, gap := none, held := [] }

/-- The core under reset: all sixteen planes in the spray set (CORE_STATUS, reset 0x0010_FFFF). -/
def Core.reset : Core :=
  { planes := [], spray := 0xFFFF, seqs := [], ctx := [], sprayJ := [], held := [], transit := [], asm := [], flushEnd := 0, fabEnd := 0,
    waitHand := [] }

/-- An empty queue. -/
def Queue.reset : Queue :=
  { pkts := [], head := 0, pages := [], tail := 0, shelv := false, avg := 0, tavg := 0, retry := false, hi := 0, lo := 0 }

/-- Queues and schedulers under reset. -/
def Tm.reset : Tm :=
  { queues := [], shapers := [], deficit := [], rr := [], meters := [], hostQ := [], voq := [], shared := [], residue := [], resHi := 0, resLo := 0, jobs := [],
    mirJobs := [], mirSeen := [], copies := 0, meterNew := [], draws := [], retried := false,
    mirTurn := false, flushing := [], flushEnd := [], flushed := [], depthAt := [] }

/-- A disabled port (OCT_PORT_STATUS, reset 0). -/
def Port.reset : Port :=
  { state := .disabled, due := none, holdAt := 0, remoteF := false, localF := false, rxPaused := 0, pauseEnd := [], txPause := 0, sent := 0,
    toCipher := [], wire := [] }

/-- No scan has run (OCT_EYE_STATUS, reset 0). -/
def Eye.reset : Eye := { state := 0, cause := 0, points := 0, row := [] }

/-- A recovered-clock output that drives nothing. -/
def Rclk.reset : Rclk := { squelched := true, changing := false, since := 0, ratio := 0, khz := 0 }

/-- A disabled fabric lane (FAB_LANE_STATUS, reset 0). -/
def Lane.reset : Lane :=
  { state := .disabled, due := none, ver := 0, cause := 0, partFe := false, partDev := 0, partLane := 0, rtt := 0, last16 := [],
    testTicks := 0, idleTicks := 0, passed := false, errs := [], reach := 0, partReady := false, inSpray := false,
    graceful := none, rx := [], slip := 0, commas := 0, txBits := 0, slots := [], msgs := [] }

/-- Fabric links under reset. -/
def Fabric.reset : Fabric := { lanes := [], init := 0, had := [], gone := [], rr := [], src := [], dst := [], resets := [] }

/-- Cipher engine under reset: no context, no key (R396). -/
def Cipher.reset : Cipher :=
  { ctx := [], keys := [], keyData := [], ctxNext := [], keyNext := [], cmdNext := [], icv := [] }

/-- Time under reset: both domains at 0, domain 0 active, J = 0 (R325). -/
def Time.reset : Time :=
  { d0 := 0, d1 := 0, a0 := 0, a1 := 0, i0 := 0, i1 := 0, active := 0, r := 0,
    slew := false, j := 0, jLate := 0, diff := 0, ofs0 := none, ofs1 := none, tsq := [], pulse := [], arm := [],
    high := [], past := [] }

/-- A closed session. -/
def Session.closed : Session :=
  { isOpen := false, ver := 0, h := 0, cache := [], prog := [], shadow := [], fresh := false }

/-- A host port under reset. -/
def HostPort.reset : HostPort := { state := .disabled, due := none, lastDcp := none }

/-- The DCP engine under reset: no session, epoch 0, notices numbered from 1, HP0 active (R345, R351). -/
def Dcp.reset : Dcp :=
  { sessions := [], warden := none, epoch := 0, accepted := [], waiting := [], resps := [], notices := [], sentLog := [],
    nextNum := 1, lostNow := 0, alert := false, staging := none, active := 0, activeTo := none, failTo := none, hp0 := HostPort.reset,
    hp1 := HostPort.reset, check := none, drainAt := 0, drained := false, drainNo := 0, accNo := 0 }

/-- Counters under reset: all zero (R354). -/
def Counters.reset : Counters :=
  { ctr := [], hist := [], thr := [], thrClear := [], snap := none, lastSnap := none, fresh := false }

/-- Vigil under reset: HEALTHY (R414). -/
def Vigil.reset : Vigil :=
  { state := 0, reasons := 0, replace := false, log := [], life := [], burning := [], seen := [], ctrlTick := [],
    odbTick := [], tap := 0xFF }

/-- The machine while RESET_N is low (R396): every register at its reset value (nothing listed), nothing stored, no
session, no command waiting. RESET_N_RELEASE latches the straps and starts COLD_WAIT. -/
def State.reset : State :=
  { regs := [], dp := [], wideHeld := [], mem := [], boot := Boot.reset, power := Power.reset, alm := Almanac.reset,
    threads := [], halted := [], issuer := [], spareIn := [], clusters := [], slices := [], rx := [], dir := [],
    dirNext := [], wings := [], pools := [], freeChk := [], gddr := Stacks.reset, core := Core.reset, tm := Tm.reset,
    ports := [], eyes := [], rclkA := Rclk.reset, rclkB := Rclk.reset, fabric := Fabric.reset, cipher := Cipher.reset,
    time := Time.reset, dcp := Dcp.reset, ctrs := Counters.reset, vigil := Vigil.reset, out := [], nextId := 0,
    retired := 0, free := 0, pending := [] }

end Sys2Proof.Machine
end

