-- ==== Sys2Proof/Machine/Store.lean ====
section
/-! DEFINITION. Reading and writing the tables of State: sparse tables keyed by a number, and device memory (R25). -/

namespace Sys2Proof.Machine

/-- The entry of a table at a key; d where the table lists none. -/
def SMap.find {α : Type} (d : α) : SMap α → Nat → α
  | [], _ => d
  | (k, v) :: m, i => if k = i then v else SMap.find d m i

/-- Insert an entry before the first larger key. -/
def SMap.insert {α : Type} : SMap α → Nat → α → SMap α
  | [], i, v => [(i, v)]
  | (k, w) :: m, i, v => if i < k then (i, v) :: (k, w) :: m else (k, w) :: SMap.insert m i v

/-- Drop every entry at a key. -/
def SMap.drop {α : Type} : SMap α → Nat → SMap α
  | [], _ => []
  | (k, w) :: m, i => if k = i then SMap.drop m i else (k, w) :: SMap.drop m i

/-- Write an entry, where d is what an unlisted key reads as. -/
def SMap.set {α : Type} [DecidableEq α] (d : α) (m : SMap α) (i : Nat) (v : α) : SMap α :=
  if v = d then m.drop i else (m.drop i).insert i v

/-- Change every listed value; entries that become the unlisted value leave the table. -/
def SMap.mapV {α : Type} [DecidableEq α] (d : α) (f : α → α) (m : SMap α) : SMap α :=
  (m.map (fun x => (x.1, f x.2))).filter (fun x => decide (x.2 ≠ d))

/-- The canonical form: keys strictly rising, and no entry equal to what an unlisted key reads as. -/
def SMap.wf {α : Type} [DecidableEq α] (d : α) : SMap α → Bool
  | [] => true
  | [(_, v)] => decide (v ≠ d)
  | (k, v) :: (k', v') :: m => decide (k < k') && decide (v ≠ d) && SMap.wf d ((k', v') :: m)

/-- What an unwritten byte of device memory reads as. DESIGN CHOICE (log 1): the manual gives no contents. -/
def memDefault : Byte := 0

/-- The canonical form of device memory. -/
def Memory.wf (m : List Host.Cell) : Bool := SMap.wf memDefault m

/-- One byte of device memory. -/
def memRead (m : List Host.Cell) (a : Nat) : Byte := SMap.find memDefault m a

/-- Write one byte of device memory. -/
def memWrite (m : List Host.Cell) (a : Nat) (b : Byte) : List Host.Cell := SMap.set memDefault m a b

/-- n bytes of device memory, rising addresses. -/
def memReadN (m : List Host.Cell) (a : Nat) : Nat → List Byte
  | 0 => []
  | n + 1 => memRead m a :: memReadN m (a + 1) n

/-- Write bytes at rising addresses. -/
def memWriteN (m : List Host.Cell) (a : Nat) : List Byte → List Host.Cell
  | [] => m
  | b :: bs => memWriteN (memWrite m a b) (a + 1) bs

/-- The value of bytes, least significant first (R8: device memory and registers). -/
def leNat : List Byte → Nat
  | [] => 0
  | b :: bs => b.toNat + 256 * leNat bs

/-- The value of bytes, most significant first (R8: frames). -/
def beNat (bs : List Byte) : Nat := bs.foldl (fun n b => 256 * n + b.toNat) 0

/-- The low n bytes of a number, least significant first. -/
def leBytes : Nat → Nat → List Byte
  | 0, _ => []
  | n + 1, v => BitVec.ofNat 8 v :: leBytes n (v / 256)

/-- The low n bytes of a number, most significant first. -/
def beBytes (n v : Nat) : List Byte := (leBytes n v).reverse

/-- n bytes of a list from offset o; bytes past the end read as 0. -/
def slice0 (l : List Byte) (o n : Nat) : List Byte :=
  let t := (l.drop o).take n
  t ++ List.replicate (n - t.length) 0

/-- A list with the bytes from offset o replaced by bs; nothing past the end is added. -/
def putAt (l : List Byte) (o : Nat) (bs : List Byte) : List Byte :=
  l.take o ++ (bs.take (l.length - o)) ++ l.drop (o + bs.length)

/-- The n-th element replaced. -/
def setIdx {α : Type} (l : List α) (i : Nat) (a : α) : List α := l.set i a

end Sys2Proof.Machine
end

