-- ==== Sys2Proof/Machine/Crypto.lean ====
section
/-! DEFINITION. The block cipher and its modes that chapter 11 names: AES, GCM with its GMAC form, and AES key wrap.
PRESUMED (log 29): the algorithms are those of FIPS 197, NIST SP 800-38D and RFC 3394, which the manual cites by name or
through the standards of Table 11.1. -/

namespace Sys2Proof.Machine

/-! ### AES (FIPS 197) -/

/-- The substitution table, sixteen bytes to a row, the first byte lowest. -/
def sboxRows : List Nat := [
  0x76ABD7FE2B670130C56F6BF27B777C63, 0xC072A49CAFA2D4ADF04759FA7DC982CA, 0x1531D871F1E5A534CCF73F362693FDB7,
  0x75B227EBE28012079A059618C323C704, 0x842FE329B3D63B52A05A6E1B1A2C8309, 0xCF584C4A39BECB6A5BB1FC20ED00D153,
  0xA89F3C507F02F94585334D43FBAAEFD0, 0xD2F3FF1021DAB6BCF5389D928F40A351, 0x73195D643D7EA7C41744975FEC130CCD,
  0xDB0B5EDE14B8EE4688902A22DC4F8160, 0x79E4959162ACD3C25C2406490A3A32E0, 0x08AE7A65EAF4566CA94ED58D6D37C8E7,
  0x8A8BBD4B1F74DDE8C6B4A61C2E2578BA, 0x9E1DC186B95735610EF6034866B53E70, 0xDF2855CEE9871E9B948ED9691198F8E1,
  0x16BB54B00F2D99416842E6BF0D89A18C]

/-- The inverse substitution table. -/
def isboxRows : List Nat := [
  0xFBD7F3819EA340BF38A53630D56A0952, 0xCBE9DEC444438E3487FF2F9B8239E37C, 0x4EC3FA420B954CEE3D23C2A632947B54,
  0x25D18B6D49A25B76B224D92866A12E08, 0x92B6655DCC5CA4D41698688664F6F872, 0x849D8DA75746155EDAB9EDFD5048706C,
  0x0645B3B80558E4F70AD3BC8C00ABD890, 0x6B8A130103BDAFC1020F3FCA8F1E2CD0, 0x73E6B4F0CECFF297EADC674F4111913A,
  0x6EDF751CE837F9E28535ADE72274AC96, 0x1BBE18AA0E62B76F89C5291D711AF147, 0xF45ACD78FEC0DB9A2079D2C64B3E56FC,
  0x5FEC8027591012B131C7078833A8DD1F, 0xEF9CC9939F7AE52D0D4AB519A97F5160, 0x619953833CBBEBC8B0F52AAE4D3BE0A0,
  0x7D0C2155631469E126D677BA7E042B17]

/-- A byte of a table of rows. -/
def tabByte (t : List Nat) (i : Nat) : Nat := t.getD (i / 16) 0 / 2 ^ (8 * (i % 16)) % 256

/-- Multiplication by x in the field of AES. -/
def xtime (a : Nat) : Nat := if 128 ≤ a then (2 * a - 256) ^^^ 0x1B else 2 * a

/-- Multiplication of a byte by a constant of at most four bits. -/
def gmul (c a : Nat) : Nat :=
  (if c % 2 = 1 then a else 0) ^^^ (if c / 2 % 2 = 1 then xtime a else 0) ^^^
  (if c / 4 % 2 = 1 then xtime (xtime a) else 0) ^^^ (if c / 8 % 2 = 1 then xtime (xtime (xtime a)) else 0)

/-- Exclusive OR of byte strings of one length. -/
def xorBytes (a b : List Nat) : List Nat := List.zipWith (fun x y => x ^^^ y) a b

/-- SubBytes with a table. -/
def subBytes (t : List Nat) (s : List Nat) : List Nat := s.map (tabByte t)

/-- ShiftRows: byte r + 4c comes from column c + r. -/
def shiftRows (s : List Nat) : List Nat := (List.range 16).map (fun i => s.getD ((i + 4 * (i % 4)) % 16) 0)

/-- The inverse of ShiftRows. -/
def unshiftRows (s : List Nat) : List Nat := (List.range 16).map (fun i => s.getD ((i + 16 - 4 * (i % 4)) % 16) 0)

/-- A column mixed by the circulant matrix with first row m. -/
def mixCol (m : List Nat) (s : List Nat) (i : Nat) : Nat :=
  (List.range 4).foldl (fun acc k => acc ^^^ gmul (m.getD ((k + 4 - i % 4) % 4) 0) (s.getD (i / 4 * 4 + k) 0)) 0

/-- MixColumns with a matrix. -/
def mixColumns (m : List Nat) (s : List Nat) : List Nat := (List.range 16).map (mixCol m s)

/-- Round constants of the key schedule. -/
def rcon (i : Nat) : Nat := (List.range (i - 1)).foldl (fun c _ => xtime c) 1

/-- One more word of the key schedule for keys of nk words, newest word first. -/
def nextKeyWord (nk i : Nat) (ws : List (List Nat)) : List Nat :=
  let t := ws.headD []
  let t1 := if i % nk = 0 then
      xorBytes ((t.drop 1 ++ t.take 1).map (tabByte sboxRows)) [rcon (i / nk), 0, 0, 0]
    else if 6 < nk ∧ i % nk = 4 then t.map (tabByte sboxRows)
    else t
  xorBytes (ws.getD (nk - 1) []) t1

/-- The four bytes of word i of a key. -/
def keyWordAt (key : List Nat) (i : Nat) : List Nat := (key.drop (4 * i)).take 4

/-- The round keys of a key of 16 or 32 bytes. -/
def roundKeys (key : List Nat) : List (List Nat) :=
  let nk := key.length / 4
  let ws := (List.range (4 * (nk + 7) - nk)).foldl (fun l i => nextKeyWord nk (i + nk) l :: l)
    ((List.range nk).map (keyWordAt key)).reverse
  let w := ws.reverse
  (List.range (nk + 7)).map (fun r => ((w.drop (4 * r)).take 4).flatten)

/-- The cipher on one block. -/
def aesEnc (ks : List (List Nat)) (b : List Nat) : List Nat :=
  match ks with
  | [] => b
  | k0 :: rest =>
    let mid := rest.dropLast.foldl (fun s k => xorBytes (mixColumns [2, 3, 1, 1] (shiftRows (subBytes sboxRows s))) k)
      (xorBytes b k0)
    xorBytes (shiftRows (subBytes sboxRows mid)) (rest.getLastD [])

/-- The inverse cipher on one block. -/
def aesDec (ks : List (List Nat)) (b : List Nat) : List Nat :=
  match ks.reverse with
  | [] => b
  | k0 :: rest =>
    let mid := rest.dropLast.foldl (fun s k => mixColumns [14, 11, 13, 9] (xorBytes (subBytes isboxRows (unshiftRows s)) k))
      (xorBytes b k0)
    xorBytes (subBytes isboxRows (unshiftRows mid)) (rest.getLastD [])

/-! ### GCM (NIST SP 800-38D) -/

/-- Product in the field of GHASH, bit 0 being the most significant of 128. -/
def ghMul (x y : Nat) : Nat :=
  ((List.range 128).foldl (fun (a : Nat × Nat) i =>
    (if x / 2 ^ (127 - i) % 2 = 1 then a.1 ^^^ a.2 else a.1,
     if a.2 % 2 = 1 then (a.2 / 2) ^^^ (0xE1 * 2 ^ 120) else a.2 / 2)) (0, y)).1

/-- A byte string cut into blocks of 16, the last one padded with zeros; n is at least the number of blocks. -/
def blocks16 : Nat → List Nat → List (List Nat)
  | 0, _ => []
  | _ + 1, [] => []
  | n + 1, l => let b := l.take 16
    (b ++ List.replicate (16 - b.length) 0) :: blocks16 n (l.drop 16)

/-- The blocks of a byte string. -/
def blocksOf (l : List Nat) : List (List Nat) := blocks16 (l.length / 16 + 1) l

/-- A byte string as a number, first byte most significant. -/
def natOfBytes (l : List Nat) : Nat := l.foldl (fun a b => 256 * a + b) 0

/-- The n bytes of a number, first byte most significant. -/
def bytesOfNat (n v : Nat) : List Nat := (List.range n).map (fun i => v / 2 ^ (8 * (n - 1 - i)) % 256)

/-- GHASH of the additional data and the ciphertext. -/
def ghash (h : Nat) (aad ct : List Nat) : Nat :=
  (blocksOf aad ++ blocksOf ct ++ [bytesOfNat 8 (8 * aad.length) ++ bytesOfNat 8 (8 * ct.length)]).foldl
    (fun y b => ghMul (y ^^^ natOfBytes b) h) 0

/-- The counter stream from counter value c on. -/
def ctrStream (ks : List (List Nat)) (iv : List Nat) (c n : Nat) : List Nat :=
  (List.range n).flatMap (fun i => aesEnc ks (iv ++ bytesOfNat 4 (c + i)))

/-- GCTR from counter 2: encryption and decryption. -/
def gctr (ks : List (List Nat)) (iv text : List Nat) : List Nat :=
  xorBytes text (ctrStream ks iv 2 ((text.length + 15) / 16))

/-- The tag over additional data and ciphertext. -/
def gcmTag (ks : List (List Nat)) (iv aad ct : List Nat) : List Nat :=
  let h := natOfBytes (aesEnc ks (List.replicate 16 0))
  xorBytes (aesEnc ks (iv ++ [0, 0, 0, 1])) (bytesOfNat 16 (ghash h aad ct))

/-! ### Key wrap (RFC 3394) -/

/-- The 64-bit halves of a string of 8 n bytes. -/
def halves (l : List Nat) : List (List Nat) := (List.range (l.length / 8)).map (fun i => (l.drop (8 * i)).take 8)

/-- The initial value of the wrap. -/
def kwIv : List Nat := List.replicate 8 0xA6

/-- One step of the wrap, on half i (from 0) in step number t (from 1). -/
def kwStep (ks : List (List Nat)) (a : List Nat × List (List Nat)) (i t : Nat) : List Nat × List (List Nat) :=
  let b := aesEnc ks (a.1 ++ a.2.getD i [])
  (xorBytes (b.take 8) (bytesOfNat 8 t), a.2.set i (b.drop 8))

/-- One step of the unwrap. -/
def kwUnstep (ks : List (List Nat)) (a : List Nat × List (List Nat)) (i t : Nat) : List Nat × List (List Nat) :=
  let b := aesDec ks (xorBytes a.1 (bytesOfNat 8 t) ++ a.2.getD i [])
  (b.take 8, a.2.set i (b.drop 8))

/-- The wrap of a string of 8 n bytes: 8 n + 8 bytes. -/
def kwWrap (key text : List Nat) : List Nat :=
  let ks := roundKeys key
  let r := halves text
  let n := r.length
  let z := (List.range (6 * n)).foldl (fun a k => kwStep ks a (k % n) (k + 1)) (kwIv, r)
  z.1 ++ z.2.flatten

/-- The unwrap: the text, or none where the integrity check fails. -/
def kwUnwrap (key text : List Nat) : Option (List Nat) :=
  let ks := roundKeys key
  let r := halves (text.drop 8)
  let n := r.length
  let z := (List.range (6 * n)).reverse.foldl (fun a k => kwUnstep ks a (k % n) (k + 1)) (text.take 8, r)
  if z.1 = kwIv then some z.2.flatten else none

/-! ### Bytes of frames -/

/-- Frame bytes as numbers. -/
def natsOf (l : List Byte) : List Nat := l.map BitVec.toNat

/-- Numbers as frame bytes. -/
def bytesOf (l : List Nat) : List Byte := l.map (BitVec.ofNat 8)

end Sys2Proof.Machine
end

