-- ==== Sys2Proof/Machine/Regs.lean ====
section
/-! DEFINITION. The control address space (R14, R20, R22, R23): every register of the manual's register tables with its
offset, its reset value and its access codes (R12, Table 0.2), block by block, and the control address of each. A field
that is in none of the masks is read only or reserved. -/

namespace Sys2Proof.Machine

/-- One register, or one array of registers: offset of the first, strides and counts of its indices from the widest,
reset value, the fields a write sets (RW), the bits a 1 clears (W1C), the fields a read clears (RC), and whether it is
the lowest word of a value whose upper word stands at the next offset (R15). -/
structure RegRow where
  base  : Nat
  dims  : List (Nat × Nat)
  reset : Word32
  rw    : Word32
  w1c   : Word32
  rc    : Word32
  wide  : Bool
  deriving DecidableEq, Repr

/-- Whether a byte distance from a register's base is an index of its array. -/
def dimsHit : List (Nat × Nat) → Nat → Bool
  | [], r => r == 0
  | (st, n) :: ds, r => decide (r / st < n) && dimsHit ds (r % st)

/-- Whether an offset names a register of a row. -/
def RegRow.hit (row : RegRow) (off : Nat) : Bool := decide (row.base ≤ off) && dimsHit row.dims (off - row.base)

/-- The registers of a QCTL block (01_architecture, R23). -/
def qctlRows : List RegRow := [
  ⟨0x0, [], 0x0, 0x0, 0x0, 0x0, false⟩, -- QCTL_ID
  ⟨0x4, [], 0x0, 0x0, 0x2, 0x0, false⟩, -- QCTL_STATUS
  ⟨0x8, [], 0x0, 0x0, 0x0, 0xFFFFFFFF, false⟩] -- QCTL_LINK_ERR_CNT

/-- The registers of a ALMANAC block (02_almanac, R58). -/
def almanacRows : List RegRow := [
  ⟨0x0, [], 0x0, 0x3, 0x0, 0x0, false⟩, -- ALM_CTL
  ⟨0x4, [], 0x0, 0x0, 0x0, 0x0, false⟩, -- ALM_STATUS
  ⟨0x8, [], 0x0, 0x0, 0x0, 0x0, true⟩, -- ALM_TICK_LO
  ⟨0xC, [], 0x0, 0x0, 0x0, 0x0, false⟩, -- ALM_TICK_HI
  ⟨0x10, [], 0x0, 0xFFFFFC00, 0x0, 0x0, true⟩, -- ALM_TICK_SET_LO
  ⟨0x14, [], 0x0, 0xFFFF, 0x0, 0x0, false⟩, -- ALM_TICK_SET_HI
  ⟨0x18, [], 0x4010000, 0xF031F1F, 0x0, 0x0, false⟩, -- ALM_SYNC
  ⟨0x1C, [], 0x0, 0x0, 0x0, 0x0, false⟩, -- ALM_CYCLES
  ⟨0x20, [], 0x90000000, 0x0, 0x0, 0x0, false⟩, -- ALM_GRANT
  ⟨0x24, [], 0x10020108, 0xFF0F0F0F, 0x0, 0x0, false⟩, -- ALM_LIMIT
  ⟨0x28, [], 0x0, 0x0, 0x0, 0x0, false⟩, -- ALM_BUDGET
  ⟨0x30, [], 0x0, 0x0, 0x0, 0xFFFFFFFF, false⟩, -- ALM_SYNC_ERR_CNT
  ⟨0x34, [], 0x0, 0x0, 0xF, 0x0, false⟩] -- ALM_EVENTS

/-- The registers of a SCRIBES block (03_scribes, R102). -/
def scribesRows : List RegRow := [
  ⟨0x0, [(0x40, 4)], 0x44000, 0x0, 0x0, 0x0, false⟩, -- SCR_CL_STATUS
  ⟨0x4, [(0x40, 4)], 0x0, 0x0, 0x0, 0x0, false⟩, -- SCR_CODEX_VER
  ⟨0x8, [(0x40, 4)], 0x0, 0x0, 0x0, 0x0, false⟩, -- SCR_CODEX_CRC
  ⟨0xC, [(0x40, 4)], 0x0, 0x0, 0x0, 0x0, false⟩, -- SCR_SPARE_MAP
  ⟨0x10, [(0x40, 4)], 0x0, 0x0, 0x0, 0x0, true⟩, -- SCR_RETIRED_LO
  ⟨0x14, [(0x40, 4)], 0x0, 0x0, 0x0, 0x0, false⟩, -- SCR_RETIRED_HI
  ⟨0x18, [(0x40, 4)], 0x0, 0x0, 0x0, 0x0, false⟩, -- SCR_MC_LAST
  ⟨0x1C, [(0x40, 4)], 0x0, 0x0, 0x0, 0xFFFFFFFF, false⟩, -- SCR_MC_CNT
  ⟨0x100, [], 0x0, 0x0, 0xFFFF, 0x0, false⟩] -- SCR_EVENTS

/-- The registers of a PROGSTORE block (03_scribes, R102). -/
def progstoreRows : List RegRow := [
  ⟨0x0, [(0x40, 4)], 0x0, 0x0, 0x0, 0x0, false⟩, -- PS_LOAD_STATUS
  ⟨0x4, [(0x40, 4)], 0x0, 0x0, 0x0, 0x0, false⟩, -- PS_IMAGE_ID
  ⟨0x8, [(0x40, 4)], 0x0, 0x0, 0x0, 0x0, false⟩, -- PS_IMAGE_CRC
  ⟨0xC, [(0x40, 4)], 0x0, 0x0, 0x0, 0x0, false⟩, -- PS_INFO
  ⟨0x10, [(0x40, 4)], 0x0, 0x3F, 0x0, 0x0, false⟩, -- PS_ENTRY_SEL
  ⟨0x14, [(0x40, 4)], 0x0, 0x0, 0x0, 0x0, false⟩, -- PS_ENTRY
  ⟨0x18, [(0x40, 4)], 0x0, 0x0, 0x0, 0x0, false⟩, -- PS_ENTRY_WCET
  ⟨0x100, [], 0x1, 0x1, 0x0, 0x0, false⟩, -- PS_SCRUB_CTL
  ⟨0x104, [], 0x0, 0x0, 0x0, 0xFFFFFFFF, false⟩, -- PS_SCRUB_CNT
  ⟨0x108, [], 0x0, 0x0, 0x0, 0xFFFFFFFF, false⟩] -- PS_SHADOW_ERR

/-- The registers of a ACCESSION block (05_packet_path, R155). -/
def accessionRows : List RegRow := [
  ⟨0x0, [], 0x0, 0x2, 0x0, 0x0, false⟩, -- ACC_CTL
  ⟨0x4, [], 0x0, 0x0, 0x0, 0x0, false⟩, -- ACC_STATUS
  ⟨0x8, [], 0x3000200, 0x7FF07FF, 0x0, 0x0, false⟩, -- ACC_FIFO
  ⟨0xC, [], 0x100001, 0x1F3F01, 0x0, 0x0, false⟩, -- ACC_PARSE
  ⟨0x10, [], 0x4002, 0xFFFF07, 0x0, 0x0, false⟩, -- ACC_RECIRC
  ⟨0x14, [], 0x0, 0x0, 0x3F, 0x0, false⟩, -- ACC_EVENTS
  ⟨0x18, [], 0x0, 0x0, 0x0, 0x1FFFF, false⟩, -- ACC_FIFO_PEAK
  ⟨0x400, [(0x4, 64)], 0x0, 0x8F7C00FF, 0x0, 0x0, false⟩, -- ACC_PORT_CFG
  ⟨0x10000, [(0x4000, 2), (0x40, 256)], 0x0, 0xFF3FFFFF, 0x0, 0x0, false⟩, -- ACC_STATE word 0
  ⟨0x10004, [(0x4000, 2), (0x40, 256)], 0x0, 0xFFFFFFFF, 0x0, 0x0, false⟩, -- ACC_STATE word 1
  ⟨0x10008, [(0x4000, 2), (0x40, 256)], 0x0, 0xFFFF0000, 0x0, 0x0, false⟩, -- ACC_STATE word 2
  ⟨0x1000C, [(0x4000, 2), (0x40, 256)], 0x0, 0xFF7F3F00, 0x0, 0x0, false⟩, -- ACC_STATE word 3
  ⟨0x10010, [(0x4000, 2), (0x40, 256)], 0x0, 0xFF7F3F00, 0x0, 0x0, false⟩, -- ACC_STATE word 4
  ⟨0x10014, [(0x4000, 2), (0x40, 256)], 0x0, 0xFFFFFFFF, 0x0, 0x0, false⟩, -- ACC_STATE word 5
  ⟨0x10018, [(0x4000, 2), (0x40, 256)], 0x0, 0xFFFFFFFF, 0x0, 0x0, false⟩, -- ACC_STATE word 6
  ⟨0x1001C, [(0x4000, 2), (0x40, 256)], 0x0, 0xFFFFFFFF, 0x0, 0x0, false⟩, -- ACC_STATE word 7
  ⟨0x10020, [(0x4000, 2), (0x40, 256)], 0x0, 0xFFFFFFFF, 0x0, 0x0, false⟩, -- ACC_STATE word 8
  ⟨0x10024, [(0x4000, 2), (0x40, 256)], 0x0, 0xFFFFFFFF, 0x0, 0x0, false⟩, -- ACC_STATE word 9
  ⟨0x10028, [(0x4000, 2), (0x40, 256)], 0x0, 0xFFFFFFFF, 0x0, 0x0, false⟩, -- ACC_STATE word 10
  ⟨0x1002C, [(0x4000, 2), (0x40, 256)], 0x0, 0xFFFFFFFF, 0x0, 0x0, false⟩, -- ACC_STATE word 11
  ⟨0x10030, [(0x4000, 2), (0x40, 256)], 0x0, 0xFFFFFFFF, 0x0, 0x0, false⟩, -- ACC_STATE word 12
  ⟨0x10034, [(0x4000, 2), (0x40, 256)], 0x0, 0xFFFFFFFF, 0x0, 0x0, false⟩, -- ACC_STATE word 13
  ⟨0x10038, [(0x4000, 2), (0x40, 256)], 0x0, 0xFFFFFFFF, 0x0, 0x0, false⟩, -- ACC_STATE word 14
  ⟨0x1003C, [(0x4000, 2), (0x40, 256)], 0x0, 0x0, 0x0, 0x0, false⟩] -- ACC_STATE word 15

/-- The registers of a CATALOGUE block (06_catalogue, R188). -/
def catalogueRows : List RegRow := [
  ⟨0x0, [], 0x0, 0x1, 0x0, 0x0, false⟩, -- CAT_CTL
  ⟨0x4, [], 0x0, 0x0, 0x0, 0x0, false⟩, -- CAT_STATUS
  ⟨0x8, [], 0x0, 0x0, 0x0, 0x0, false⟩, -- CAT_LOCKED
  ⟨0xC, [], 0x30017D8, 0xF00FFFF, 0x0, 0x0, false⟩, -- CAT_FLAP
  ⟨0x10, [], 0xEE6B, 0xFFFF, 0x0, 0x0, false⟩, -- CAT_FREEZE
  ⟨0x14, [], 0x0, 0xFFFF, 0x0, 0x0, false⟩, -- CAT_AGE
  ⟨0x18, [], 0x0, 0x0, 0x1F, 0x0, false⟩, -- CAT_EVENTS
  ⟨0x40, [(0x4, 14)], 0x0, 0x0, 0x0, 0xFFFFFFFF, false⟩] -- CAT_CNT

/-- The registers of a CATALOGUE block that only the even wing of a pair has (06_catalogue, R188). -/
def cataloguePairRows : List RegRow := [
  ⟨0x1C, [], 0x0, 0x0, 0x0, 0x0, false⟩, -- CAT_DIR_RESULT
  ⟨0x1000, [(0x20, 256)], 0x0, 0xFFFFFFFF, 0x0, 0x0, false⟩, -- CAT_DIR word 0
  ⟨0x1004, [(0x20, 256)], 0x0, 0xFFFFFFFF, 0x0, 0x0, false⟩, -- CAT_DIR word 1
  ⟨0x1008, [(0x20, 256)], 0x0, 0xFFFFFFFF, 0x0, 0x0, false⟩, -- CAT_DIR word 2
  ⟨0x100C, [(0x20, 256)], 0x0, 0xFFFFFFFF, 0x0, 0x0, false⟩, -- CAT_DIR word 3
  ⟨0x1010, [(0x20, 256)], 0x0, 0xFFFFFFFF, 0x0, 0x0, false⟩, -- CAT_DIR word 4
  ⟨0x1014, [(0x20, 256)], 0x0, 0xFFFFFFFF, 0x0, 0x0, false⟩, -- CAT_DIR word 5
  ⟨0x1018, [(0x20, 256)], 0x0, 0xFFFFFFFF, 0x0, 0x0, false⟩, -- CAT_DIR word 6
  ⟨0x101C, [(0x20, 256)], 0x0, 0xFFFFFFFF, 0x0, 0x0, false⟩] -- CAT_DIR word 7

/-- The registers of a CIRCULATION block (07_buffers, R213). -/
def circulationRows : List RegRow := [
  ⟨0x0, [], 0x0, 0x0, 0x1F, 0x0, false⟩, -- CIRC_EVENTS
  ⟨0x8, [], 0x0, 0xFFFFFFFF, 0x0, 0x0, false⟩, -- CIRC_HOST_FREE_NUM
  ⟨0xC, [], 0x0, 0x80000F0F, 0x0, 0x0, false⟩, -- CIRC_HOST_FREE_CMD
  ⟨0x10, [], 0x0, 0x0, 0x0, 0x0, false⟩, -- CIRC_HOST_FREE_RESULT
  ⟨0x100, [(0x40, 16)], 0x0, 0x1F0103, 0x0, 0x0, false⟩, -- CIRC_POOL_CFG
  ⟨0x104, [(0x40, 16)], 0x0, 0x7DFFFFF, 0x0, 0x0, false⟩, -- CIRC_POOL_BASE
  ⟨0x108, [(0x40, 16)], 0x0, 0xFFFFFFFF, 0x0, 0x0, false⟩, -- CIRC_POOL_COUNT
  ⟨0x10C, [(0x40, 16)], 0x0, 0xFFFFFFFF, 0x0, 0x0, false⟩, -- CIRC_POOL_RING
  ⟨0x110, [(0x40, 16)], 0x0, 0x0, 0x0, 0x0, false⟩, -- CIRC_POOL_FREE
  ⟨0x114, [(0x40, 16)], 0xFFFFFFFF, 0x0, 0x0, 0xFFFFFFFF, false⟩, -- CIRC_POOL_LOW
  ⟨0x120, [(0x40, 16), (0x4, 8)], 0x0, 0x0, 0x0, 0xFFFFFFFF, false⟩, -- CIRC_POOL_CNT
  ⟨0x800, [(0x8, 32)], 0x0, 0xF003FFFF, 0x0, 0x0, false⟩, -- CIRC_REGION_A
  ⟨0x804, [(0x8, 32)], 0x0, 0x7FFFF, 0x0, 0x0, false⟩, -- CIRC_REGION_B
  ⟨0xA00, [(0x8, 16)], 0x0, 0x80FFFFFF, 0x0, 0x0, false⟩, -- CIRC_SHELVE_A
  ⟨0xA04, [(0x8, 16)], 0x200, 0x80FF0FFF, 0x0, 0x0, false⟩, -- CIRC_SHELVE_B
  ⟨0x1000, [(0x4, 512)], 0x100, 0xFFF, 0x0, 0x0, false⟩] -- CIRC_RECALL

/-- The registers of a STACKS block (07_buffers, R213). -/
def stacksRows : List RegRow := [
  ⟨0x0, [], 0x28, 0x3F, 0x0, 0x0, false⟩, -- STK_CFG
  ⟨0x4, [], 0x0, 0x1, 0x0, 0x0, false⟩, -- STK_CTL
  ⟨0x8, [], 0x0, 0x0, 0x0, 0x0, false⟩, -- STK_STATUS
  ⟨0xC, [], 0x0, 0x0, 0x0, 0xFFFFFFFF, false⟩, -- STK_POST_DROP
  ⟨0x10, [], 0x0, 0x0, 0x7, 0x0, false⟩] -- STK_EVENTS

/-- The registers of a GDDR block (07_buffers, R213). -/
def gddrRows : List RegRow := [
  ⟨0x0, [], 0x0, 0x0, 0x0, 0x0, false⟩, -- GD_STATUS
  ⟨0x4, [], 0x0, 0x3, 0x0, 0x0, false⟩, -- GD_CTL
  ⟨0x8, [], 0x1004, 0xFF0F, 0x0, 0x0, false⟩, -- GD_LIMIT
  ⟨0xC, [], 0x0, 0x0, 0x0, 0xFFFFFFFF, false⟩, -- GD_RETRY_CNT
  ⟨0x10, [], 0x0, 0x0, 0x0, 0xFFFFFFFF, false⟩, -- GD_UNCORR_CNT
  ⟨0x14, [], 0x0, 0x0, 0x0, 0xFFFFFFFF, false⟩] -- GD_PAGE_CRC_CNT

/-- The registers of a REPLICATION block (08_switch_core, R250). -/
def replicationRows : List RegRow := [
  ⟨0x0, [], 0x30D4, 0xF00FFFFF, 0x0, 0x0, false⟩, -- REPL_CFG
  ⟨0x4, [], 0x0, 0x0, 0x0, 0x0, false⟩, -- REPL_STATUS
  ⟨0x8, [], 0x0, 0x0, 0x3, 0x0, false⟩, -- REPL_EVENTS
  ⟨0x40000, [(0x4, 65536)], 0x0, 0xFFFF0FFF, 0x0, 0x0, false⟩, -- REPL_GROUP
  ⟨0x80000, [(0x8, 65536)], 0x0, 0xBF03FFFF, 0x0, 0x0, false⟩, -- REPL_ENTRY word 0
  ⟨0x80004, [(0x8, 65536)], 0x0, 0x800003FF, 0x0, 0x0, false⟩] -- REPL_ENTRY word 1

/-- The registers of a MIRROR block (08_switch_core, R250). -/
def mirrorRows : List RegRow := [
  ⟨0x0, [], 0x0, 0x0, 0x3, 0x0, false⟩, -- MIR_EVENTS
  ⟨0x4, [], 0x0, 0x0, 0x0, 0xFFFFFFFF, false⟩, -- MIR_BAD_CNT
  ⟨0x100, [(0x10, 32)], 0x0, 0xBFFFFFFF, 0x0, 0x0, false⟩, -- MIR_SESSION word 0
  ⟨0x104, [(0x10, 32)], 0x0, 0xFFFFF3FF, 0x0, 0x0, false⟩, -- MIR_SESSION word 1
  ⟨0x108, [(0x10, 32)], 0x0, 0xFFFFF, 0x0, 0x0, false⟩, -- MIR_SESSION word 2
  ⟨0x1000, [(0x4, 512)], 0x0, 0x9F9F, 0x0, 0x0, false⟩] -- MIR_PORT

/-- The registers of a CORE block (08_switch_core, R250). -/
def coreRows : List RegRow := [
  ⟨0x0, [], 0x0, 0xC03F00FF, 0x0, 0x0, false⟩, -- CORE_CFG
  ⟨0x4, [], 0x400004, 0xFF00FF, 0x0, 0x0, false⟩, -- CORE_RESEQ
  ⟨0x8, [], 0x1001000, 0xFFFFFFFF, 0x0, 0x0, false⟩, -- CORE_LIMITS
  ⟨0xC, [], 0x10FFFF, 0x0, 0x0, 0x0, false⟩, -- CORE_STATUS
  ⟨0x10, [], 0x0, 0x0, 0xF, 0x0, false⟩, -- CORE_EVENTS
  ⟨0x400, [(0x10, 256)], 0x0, 0xFFFFFFFF, 0x0, 0x0, false⟩, -- CORE_WRED word 0
  ⟨0x404, [(0x10, 256)], 0x0, 0xFFFFFFFF, 0x0, 0x0, false⟩, -- CORE_WRED word 1
  ⟨0x408, [(0x10, 256)], 0x0, 0xFFFFFFFF, 0x0, 0x0, false⟩, -- CORE_WRED word 2
  ⟨0x40C, [(0x10, 256)], 0x0, 0xF0F, 0x0, 0x0, false⟩, -- CORE_WRED word 3
  ⟨0x2000, [(0x4, 1024)], 0x0, 0x803F03FF, 0x0, 0x0, false⟩] -- CORE_SYSPORT

/-- The registers of a TM block (08_switch_core, R250). -/
def tmRows0 : List RegRow := [
  ⟨0x0, [(0x10, 16384)], 0x0, 0xCFFFFFFF, 0x0, 0x0, false⟩, -- TM_METER word 0
  ⟨0x4, [(0x10, 16384)], 0x0, 0xFFFFFFF, 0x0, 0x0, false⟩, -- TM_METER word 1
  ⟨0x8, [(0x10, 16384)], 0x0, 0xFFFFFFFF, 0x0, 0x0, false⟩, -- TM_METER word 2
  ⟨0xC, [(0x10, 16384)], 0x0, 0x0, 0x0, 0x0, false⟩, -- TM_METER word 3
  ⟨0x40000, [(0x10, 8192)], 0x0, 0x87FFDFFF, 0x0, 0x0, false⟩, -- TM_NODE word 0
  ⟨0x40004, [(0x10, 8192)], 0x0, 0xFFFFFFF, 0x0, 0x0, false⟩, -- TM_NODE word 1
  ⟨0x40008, [(0x10, 8192)], 0x0, 0xFFFFFFF, 0x0, 0x0, false⟩, -- TM_NODE word 2
  ⟨0x4000C, [(0x10, 8192)], 0x0, 0xFFFFFFFF, 0x0, 0x0, false⟩, -- TM_NODE word 3
  ⟨0x60000, [(0x10, 4096)], 0x0, 0x87FFDFFF, 0x0, 0x0, false⟩, -- TM_NODE word 0
  ⟨0x60004, [(0x10, 4096)], 0x0, 0xFFFFFFF, 0x0, 0x0, false⟩, -- TM_NODE word 1
  ⟨0x60008, [(0x10, 4096)], 0x0, 0xFFFFFFF, 0x0, 0x0, false⟩, -- TM_NODE word 2
  ⟨0x6000C, [(0x10, 4096)], 0x0, 0xFFFFFFFF, 0x0, 0x0, false⟩, -- TM_NODE word 3
  ⟨0x70000, [(0x10, 512)], 0x0, 0x87FFDFFF, 0x0, 0x0, false⟩, -- TM_NODE word 0
  ⟨0x70004, [(0x10, 512)], 0x0, 0xFFFFFFF, 0x0, 0x0, false⟩, -- TM_NODE word 1
  ⟨0x70008, [(0x10, 512)], 0x0, 0xFFFFFFF, 0x0, 0x0, false⟩, -- TM_NODE word 2
  ⟨0x7000C, [(0x10, 512)], 0x0, 0xFFFFFFFF, 0x0, 0x0, false⟩, -- TM_NODE word 3
  ⟨0x78000, [(0x10, 64)], 0x0, 0x87FFDFFF, 0x0, 0x0, false⟩, -- TM_NODE word 0
  ⟨0x78004, [(0x10, 64)], 0x0, 0xFFFFFFF, 0x0, 0x0, false⟩, -- TM_NODE word 1
  ⟨0x78008, [(0x10, 64)], 0x0, 0xFFFFFFF, 0x0, 0x0, false⟩, -- TM_NODE word 2
  ⟨0x7800C, [(0x10, 64)], 0x0, 0xFFFFFFFF, 0x0, 0x0, false⟩, -- TM_NODE word 3
  ⟨0x7C000, [(0x20, 64), (0x4, 8)], 0x0, 0xFFFFFFFF, 0x0, 0x0, false⟩, -- TM_PFC_TH
  ⟨0x7D000, [(0x20, 64), (0x4, 8)], 0x0, 0x0, 0x0, 0x0, false⟩, -- TM_PFC_CELLS
  ⟨0x7F000, [], 0x100, 0xFFF, 0x0, 0x0, false⟩, -- TM_CFG
  ⟨0x7F004, [], 0x0, 0x0, 0x7, 0x0, false⟩] -- TM_EVENTS
/-- The registers of a TM block, continued. -/
def tmRows1 : List RegRow := [
  ⟨0x80000, [(0x10, 32768)], 0x0, 0x87FFDFFF, 0x0, 0x0, false⟩, -- TM_QUEUE word 0
  ⟨0x80004, [(0x10, 32768)], 0x0, 0xFFFFFFFF, 0x0, 0x0, false⟩, -- TM_QUEUE word 1
  ⟨0x80008, [(0x10, 32768)], 0x0, 0xF8000000, 0x0, 0x0, false⟩, -- TM_QUEUE word 2
  ⟨0x8000C, [(0x10, 32768)], 0x0, 0x0, 0x0, 0x0, false⟩] -- TM_QUEUE word 3

/-- All registers of a TM block. -/
def tmRows : List RegRow := tmRows0 ++ tmRows1

/-- The registers of a PLANE block (08_switch_core, R250). -/
def planeRows : List RegRow := [
  ⟨0x0, [], 0x0, 0x3, 0x0, 0x0, false⟩, -- PL_CTL
  ⟨0x4, [], 0x0, 0x0, 0x0, 0x0, false⟩, -- PL_STATUS
  ⟨0x8, [], 0x40040, 0xFFFFF, 0x0, 0x0, false⟩, -- PL_LIMIT
  ⟨0xC, [], 0x0, 0x0, 0x0, 0xFFFFFFFF, false⟩, -- PL_HCRC_CNT
  ⟨0x10, [], 0x0, 0x0, 0x7, 0x0, false⟩] -- PL_EVENTS

/-- The registers of a OCTET block (09_ethernet_ports, R272). -/
def octetRows : List RegRow := [
  ⟨0x0, [], 0x0, 0x8000FF33, 0x0, 0x0, false⟩, -- OCT_MODE
  ⟨0x4, [], 0x0, 0x0, 0x0, 0x0, false⟩, -- OCT_STATUS
  ⟨0x8, [], 0x0, 0x0, 0x3F, 0x0, false⟩, -- OCT_EVENTS
  ⟨0xC, [], 0x0, 0x38787, 0x0, 0x0, false⟩, -- OCT_RCLK
  ⟨0x10, [], 0x20140004, 0xF01F07FF, 0x0, 0x0, false⟩, -- OCT_EYE_CTL
  ⟨0x14, [], 0x0, 0xFFFFFFFF, 0x0, 0x0, true⟩, -- OCT_EYE_ADDR_LO
  ⟨0x18, [], 0x0, 0xFFFF, 0x0, 0x0, false⟩, -- OCT_EYE_ADDR_HI
  ⟨0x1C, [], 0x0, 0x0, 0x0, 0x0, false⟩, -- OCT_EYE_STATUS
  ⟨0x100, [(0x40, 8)], 0x1000006, 0xFF83FFFF, 0x0, 0x0, false⟩, -- OCT_PORT_CFG
  ⟨0x104, [(0x40, 8)], 0x2400FFFF, 0x3FFFFFFF, 0x0, 0x0, false⟩, -- OCT_PORT_FRAME
  ⟨0x108, [(0x40, 8)], 0xFFFF, 0xFFFF, 0x0, 0x0, false⟩, -- OCT_PORT_PFC
  ⟨0x10C, [(0x40, 8)], 0x0, 0x0, 0x0, 0x0, false⟩, -- OCT_PORT_STATUS
  ⟨0x110, [(0x40, 8)], 0x0, 0x0, 0x0, 0xFFFFFFFF, false⟩, -- OCT_PORT_CW_CORR
  ⟨0x114, [(0x40, 8)], 0x0, 0x0, 0x0, 0xFFFFFFFF, false⟩, -- OCT_PORT_CW_UNCORR
  ⟨0x118, [(0x40, 8)], 0x0, 0x0, 0x0, 0xFFFFFFFF, false⟩, -- OCT_PORT_SYM_CORR
  ⟨0x11C, [(0x40, 8)], 0x0, 0x0, 0x0, 0xFFFFFFFF, false⟩, -- OCT_PORT_PAUSE_RX
  ⟨0x120, [(0x40, 8)], 0x0, 0x0, 0x0, 0xFFFFFFFF, false⟩, -- OCT_PORT_PAUSE_TX
  ⟨0x400, [(0x20, 8)], 0x0, 0xF01, 0x0, 0x0, false⟩, -- OCT_LANE_CFG
  ⟨0x404, [(0x20, 8)], 0x0, 0x0, 0x0, 0x0, false⟩] -- OCT_LANE_STATUS

/-- The registers of a FABRIC block (10_fabric_links, R302). -/
def fabricRows : List RegRow := [
  ⟨0x0, [], 0x50300, 0xF0F01, 0x0, 0x0, false⟩, -- FAB_CTL
  ⟨0x4, [], 0x100040, 0xFFFFFFFF, 0x0, 0x0, false⟩, -- FAB_CREDIT
  ⟨0x8, [], 0x2040020, 0xFFFFFFF, 0x0, 0x0, false⟩, -- FAB_LOSS
  ⟨0xC, [], 0x0, 0x0, 0x1F, 0x0, false⟩, -- FAB_EVENTS
  ⟨0x10, [], 0x0, 0x0, 0x0, 0xFFFFFFFF, false⟩, -- FAB_STALE_CNT
  ⟨0x14, [], 0x0, 0x0, 0x0, 0xFFFFFFFF, false⟩, -- FAB_UNKNOWN_CNT
  ⟨0x100, [(0x40, 128)], 0x0, 0x8C000000, 0x0, 0x0, false⟩, -- FAB_LANE_CFG
  ⟨0x104, [(0x40, 128)], 0x0, 0x7, 0x0, 0x0, false⟩, -- FAB_LANE_CTL
  ⟨0x108, [(0x40, 128)], 0x0, 0x0, 0x0, 0x0, false⟩, -- FAB_LANE_STATUS
  ⟨0x10C, [(0x40, 128)], 0x0, 0x0, 0x0, 0x0, false⟩, -- FAB_LANE_RTT
  ⟨0x110, [(0x40, 128)], 0x0, 0x0, 0x0, 0xFFFFFFFF, false⟩, -- FAB_LANE_CW_CORR
  ⟨0x114, [(0x40, 128)], 0x0, 0x0, 0x0, 0xFFFFFFFF, false⟩, -- FAB_LANE_CW_UNCORR
  ⟨0x118, [(0x40, 128)], 0x0, 0x0, 0x0, 0xFFFFFFFF, false⟩, -- FAB_LANE_CHK_FAIL
  ⟨0x11C, [(0x40, 128)], 0x0, 0x0, 0x0, 0xFFFFFFFF, false⟩, -- FAB_LANE_HCRC
  ⟨0x120, [(0x40, 128)], 0x0, 0x0, 0x0, 0x0, true⟩, -- FAB_LANE_REACH_LO
  ⟨0x124, [(0x40, 128)], 0x0, 0x0, 0x0, 0x0, false⟩, -- FAB_LANE_REACH_HI
  ⟨0x128, [(0x40, 128)], 0x0, 0x0, 0x0, 0x0, false⟩] -- FAB_LANE_TX

/-- The registers of a CIPHER block (11_cipher, R320). -/
def cipherRows : List RegRow := [
  ⟨0x0, [], 0x0, 0x7FFF, 0x0, 0x0, false⟩, -- CIP_SA_SEL
  ⟨0x4, [], 0x0, 0xF303FFFF, 0x0, 0x0, false⟩, -- CIP_SA_CMD
  ⟨0x8, [], 0x0, 0x0, 0x0, 0x0, false⟩, -- CIP_SA_RESULT
  ⟨0xC, [], 0x0, 0xFFFFFFFF, 0x0, 0x0, true⟩, -- CIP_GAP_LO
  ⟨0x10, [], 0x0, 0xFFFFFFFF, 0x0, 0x0, false⟩, -- CIP_GAP_HI
  ⟨0x14, [], 0x0, 0x0, 0xF, 0x0, false⟩, -- CIP_EVENTS
  ⟨0x18, [], 0x0, 0x0, 0x0, 0xFFFFFFFF, false⟩, -- CIP_MISUSE_CNT
  ⟨0x100, [(0x4, 48)], 0x0, 0xFFFFFFFF, 0x0, 0x0, false⟩, -- CIP_SA_DATA
  ⟨0x200, [(0x4, 60)], 0x0, 0xFFFFFFFF, 0x0, 0x0, false⟩, -- CIP_XFER
  ⟨0x400, [(0x8, 64)], 0x0, 0xF000000F, 0x0, 0x0, false⟩, -- CIP_PORT_CFG
  ⟨0x404, [(0x8, 64)], 0x0, 0x7FFF7FFF, 0x0, 0x0, false⟩, -- CIP_PORT_SA
  ⟨0x800, [(0x20, 64), (0x8, 4)], 0x0, 0xFFFFFFFF, 0x0, 0x0, true⟩, -- CIP_RXSC word 0
  ⟨0x804, [(0x20, 64), (0x8, 4)], 0x0, 0xFFFFFFFF, 0x0, 0x0, false⟩] -- CIP_RXSC word 1

/-- The registers of a KEYSTORE block (11_cipher, R320). -/
def keystoreRows : List RegRow := [
  ⟨0x0, [], 0x0, 0x8003FFFF, 0x0, 0x0, false⟩, -- KEY_SLOT_SEL
  ⟨0x4, [], 0x0, 0x0, 0x0, 0x0, false⟩, -- KEY_STATUS
  ⟨0x10, [(0x4, 8)], 0x0, 0x0, 0x0, 0x0, false⟩, -- KEY_DATA
  ⟨0x30, [], 0x0, 0x0, 0x0, 0x0, false⟩, -- KEY_COMMIT
  ⟨0x34, [], 0x0, 0x0, 0x0, 0x0, false⟩, -- KEY_ERASE
  ⟨0x38, [], 0x0, 0x0, 0x3, 0x0, false⟩] -- KS_EVENTS

/-- The registers of a TIME block (12_time, R335). -/
def timeRows0 : List RegRow := [
  ⟨0x0, [(0x40, 2)], 0x0, 0x0, 0x0, 0x0, true⟩, -- TIME_D_FRAC
  ⟨0x4, [(0x40, 2)], 0x0, 0x0, 0x0, 0x0, false⟩, -- TIME_D_NS
  ⟨0x8, [(0x40, 2)], 0x66666666, 0xFFFFFFFF, 0x0, 0x0, true⟩, -- TIME_D_INC_FRAC
  ⟨0xC, [(0x40, 2)], 0x6, 0xFF, 0x0, 0x0, false⟩, -- TIME_D_INC_NS
  ⟨0x10, [(0x40, 2)], 0x1A1E0000, 0xBF3FFFFF, 0x0, 0x0, false⟩, -- TIME_D_SERVO
  ⟨0x14, [(0x40, 2)], 0xD1B717, 0xFFFFFFFF, 0x0, 0x0, false⟩, -- TIME_D_ADJ_MAX
  ⟨0x18, [(0x40, 2)], 0x0, 0xFFFFFFFF, 0x0, 0x0, true⟩, -- TIME_D_OFS_FRAC
  ⟨0x1C, [(0x40, 2)], 0x0, 0xFFFFFFFF, 0x0, 0x0, false⟩, -- TIME_D_OFS_NS
  ⟨0x20, [(0x40, 2)], 0x0, 0x0, 0x0, 0x0, false⟩, -- TIME_D_ADJ
  ⟨0x24, [(0x40, 2)], 0x0, 0x0, 0x0, 0x0, false⟩, -- TIME_D_INTEG
  ⟨0x100, [], 0xA, 0xC000000F, 0x0, 0x0, false⟩, -- TIME_CTL
  ⟨0x104, [], 0x0, 0x0, 0x0, 0x0, false⟩, -- TIME_STATUS
  ⟨0x108, [(0x8, 3)], 0x0, 0x0, 0x0, 0x0, true⟩, -- TIME_VAL word 0
  ⟨0x10C, [(0x8, 3)], 0x0, 0x0, 0x0, 0x0, false⟩, -- TIME_VAL word 1
  ⟨0x120, [], 0x0, 0x0, 0x1F, 0x0, false⟩, -- TIME_EVENTS
  ⟨0x124, [], 0x1F1F, 0x80001F1F, 0x0, 0x0, false⟩, -- TIME_CFG
  ⟨0x200, [], 0x0, 0x0, 0x0, 0x80000000, false⟩, -- TSQ_STATUS
  ⟨0x204, [], 0x0, 0x0, 0x0, 0x0, false⟩, -- TSQ_RELEASE
  ⟨0x208, [], 0x0, 0x0, 0x0, 0xFFFFFFFF, false⟩, -- TSQ_LOST
  ⟨0x400, [(0x10, 64), (0x4, 4)], 0x0, 0x0, 0x0, 0x0, false⟩, -- TSQ_ENTRY
  ⟨0x800, [(0x20, 16)], 0x0, 0xFC000000, 0x0, 0x0, false⟩, -- EVT_PIN word 0
  ⟨0x804, [(0x20, 16)], 0x0, 0x0, 0x0, 0x0, false⟩, -- EVT_PIN word 1
  ⟨0x808, [(0x20, 16)], 0x0, 0x0, 0x0, 0xC0000000, false⟩, -- EVT_PIN word 2
  ⟨0x80C, [(0x20, 16)], 0x0, 0xFFFFFFFF, 0x0, 0x0, false⟩] -- EVT_PIN word 3
/-- The registers of a TIME block, continued. -/
def timeRows1 : List RegRow := [
  ⟨0x810, [(0x20, 16)], 0x0, 0xFFFFFF, 0x0, 0x0, false⟩, -- EVT_PIN word 4
  ⟨0x814, [(0x20, 16)], 0x0, 0x7FFFFFFF, 0x0, 0x0, false⟩, -- EVT_PIN word 5
  ⟨0x818, [(0x20, 16)], 0x0, 0x0, 0x0, 0x0, false⟩, -- EVT_PIN word 6
  ⟨0x81C, [(0x20, 16)], 0x0, 0x0, 0x0, 0x0, false⟩, -- EVT_PIN word 7
  ⟨0x1000, [(0x8, 512)], 0x0, 0xC0000000, 0x0, 0x0, false⟩, -- TIME_PORT word 0
  ⟨0x1004, [(0x8, 512)], 0x0, 0xFFFFFFFF, 0x0, 0x0, false⟩] -- TIME_PORT word 1

/-- All registers of a TIME block. -/
def timeRows : List RegRow := timeRows0 ++ timeRows1

/-- The registers of a DCP block (13_host_link, R353). -/
def dcpRows : List RegRow := [
  ⟨0x0, [], 0x0, 0x0, 0x0, 0x0, false⟩, -- DCP_STATUS
  ⟨0x4, [], 0x0, 0x0, 0x0, 0x0, false⟩, -- DCP_EPOCH
  ⟨0x8, [], 0x0, 0xFFFF, 0x0, 0x0, false⟩, -- DCP_GRANT
  ⟨0xC, [], 0x88B588B6, 0xFFFFFFFF, 0x0, 0x0, false⟩, -- DCP_ETYPE
  ⟨0x10, [], 0x2, 0x3, 0x0, 0x0, false⟩, -- DCP_HOSTPORT
  ⟨0x14, [], 0x4E2, 0xFFFF, 0x0, 0x0, false⟩, -- DCP_KEEPALIVE
  ⟨0x18, [], 0x1312D0, 0xFFFFFFFF, 0x0, 0x0, false⟩, -- DCP_QMAX_SOJOURN
  ⟨0x1C, [], 0x0, 0x0, 0x0, 0x0, false⟩, -- DCP_NOTICE_SEQ
  ⟨0x20, [], 0x0, 0xFFFFFFFF, 0x0, 0x0, false⟩, -- DCP_NOTICE_ACK
  ⟨0x24, [], 0x0, 0x0, 0x0, 0x0, false⟩, -- DCP_NOTICE_STATUS
  ⟨0x28, [], 0x0, 0x0, 0x0, 0xFFFFFFFF, false⟩, -- DCP_NOTICE_LOST
  ⟨0x2C, [], 0x0, 0x0, 0x0, 0xFFFFFFFF, false⟩, -- DCP_BAD_FRAME
  ⟨0x30, [], 0x0, 0x0, 0x3F, 0x0, false⟩] -- DCP_EVENTS

/-- The registers of a HP block (13_host_link, R353). -/
def hpRows : List RegRow := [
  ⟨0x0, [], 0x80000000, 0x800F0000, 0x0, 0x0, false⟩, -- HP_CFG
  ⟨0x4, [], 0x0, 0x0, 0x0, 0x0, false⟩, -- HP_STATUS
  ⟨0x8, [], 0x0, 0xFFFFFFFF, 0x0, 0x0, true⟩, -- HP_MAC_LO
  ⟨0xC, [], 0x0, 0xFFFF, 0x0, 0x0, false⟩, -- HP_MAC_HI
  ⟨0x10, [], 0xFFFFFFFF, 0xFFFFFFFF, 0x0, 0x0, true⟩, -- HP_PEER_LO
  ⟨0x14, [], 0xFFFF, 0xFFFF, 0x0, 0x0, false⟩, -- HP_PEER_HI
  ⟨0x18, [], 0x0, 0x0, 0x0, 0xFFFFFFFF, false⟩, -- HP_RX_DCP
  ⟨0x1C, [], 0x0, 0x0, 0x0, 0xFFFFFFFF, false⟩, -- HP_RX_INJ
  ⟨0x20, [], 0x0, 0x0, 0x0, 0xFFFFFFFF, false⟩, -- HP_RX_DROP
  ⟨0x24, [], 0x0, 0x0, 0x0, 0xFFFFFFFF, false⟩] -- HP_TX

/-- The registers of a CHRONICLE block (14_counters, R366). -/
def chronicleRows : List RegRow := [
  ⟨0x0, [], 0x0, 0x1FFFFFFF, 0x0, 0x0, false⟩, -- CHR_CFG
  ⟨0x4, [], 0x0, 0x0, 0x0, 0x0, false⟩, -- CHR_STATUS
  ⟨0x8, [], 0x0, 0x0, 0x0, 0x0, false⟩, -- CHR_WR_IDX
  ⟨0xC, [], 0x0, 0xFFFFFFFF, 0x0, 0x0, false⟩, -- CHR_RD_IDX
  ⟨0x10, [], 0x0, 0x0, 0x0, 0xFFFFFFFF, false⟩, -- CHR_LAP_CNT
  ⟨0x14, [], 0x0, 0x0, 0x0, 0xFFFFFFFF, false⟩, -- CHR_SKIP_CNT
  ⟨0x18, [], 0x0, 0x0, 0x7, 0x0, false⟩, -- CHR_EVENTS
  ⟨0x20, [], 0x0, 0x8007C000, 0x0, 0x0, false⟩, -- CHR_WIN
  ⟨0x30, [], 0x0, 0x1FFF, 0x0, 0x0, false⟩, -- CHR_IOAM
  ⟨0x34, [], 0x0, 0xFFFFFFFF, 0x0, 0x0, false⟩, -- CHR_IOAM_SEC
  ⟨0x40, [(0x8, 8)], 0x0, 0x7FFF3FFF, 0x0, 0x0, false⟩, -- CHR_SLICE_Q
  ⟨0x44, [(0x8, 8)], 0x0, 0x7FFF3FFF, 0x0, 0x0, false⟩, -- CHR_SLICE_SA
  ⟨0x1000, [(0x10, 1024)], 0x0, 0xF003FFFF, 0x0, 0x0, false⟩, -- CHR_THR word 0
  ⟨0x1004, [(0x10, 1024)], 0x0, 0xFFFFFFFF, 0x0, 0x0, false⟩, -- CHR_THR word 1
  ⟨0x1008, [(0x10, 1024)], 0x0, 0x0, 0x0, 0x0, true⟩, -- CHR_THR word 2
  ⟨0x100C, [(0x10, 1024)], 0x0, 0x0, 0x0, 0x0, false⟩, -- CHR_THR word 3
  ⟨0x20000, [(0x8, 16384)], 0x0, 0x0, 0x0, 0x0, true⟩, -- CHR_WIN_DATA word 0
  ⟨0x20004, [(0x8, 16384)], 0x0, 0x0, 0x0, 0x0, false⟩] -- CHR_WIN_DATA word 1

/-- The registers of a CLOCKS block (15_clocks_power, R394). -/
def clocksRows : List RegRow := [
  ⟨0x0, [], 0x0, 0x0, 0x0, 0x0, false⟩, -- CLK_STATUS
  ⟨0x4, [], 0x0, 0x0, 0x7E, 0x0, false⟩, -- CLK_EVENTS
  ⟨0x8, [], 0x0, 0x0, 0x0, 0x0, false⟩, -- CLK_REF_CNT
  ⟨0x10, [], 0x0, 0xFFF00000, 0x0, 0x0, false⟩, -- CLK_GATE_SEL
  ⟨0x14, [], 0x0, 0x80000001, 0x0, 0x0, false⟩, -- CLK_GATE_CMD
  ⟨0x18, [], 0x0, 0x0, 0x0, 0x0, false⟩, -- CLK_GATE_RESULT
  ⟨0x20, [(0x4, 4)], 0x0, 0x0, 0x0, 0x0, false⟩] -- CLK_GATED

/-- The registers of a POWER block (15_clocks_power, R394). -/
def powerRows : List RegRow := [
  ⟨0x0, [], 0x606, 0xC0000777, 0x0, 0x0, false⟩, -- POW_CTL
  ⟨0x4, [], 0x0, 0x0, 0x0, 0x0, false⟩, -- POW_STATUS
  ⟨0x8, [], 0x1403B6, 0xFFFFFFFF, 0x0, 0x0, false⟩, -- POW_CAP
  ⟨0xC, [], 0x564, 0xFFFF, 0x0, 0x0, false⟩, -- POW_THERM
  ⟨0x10, [], 0x80000004, 0x8000000F, 0x0, 0x0, false⟩, -- POW_EXT
  ⟨0x14, [], 0x0, 0x0, 0x1F, 0x0, false⟩, -- POW_EVENTS
  ⟨0x100, [(0x10, 8)], 0x0, 0xFC000007, 0x0, 0x0, false⟩, -- POW_REG word 0
  ⟨0x104, [(0x10, 8)], 0x0, 0x0, 0x0, 0x0, false⟩, -- POW_REG word 1
  ⟨0x108, [(0x10, 8)], 0x0, 0x0, 0x0, 0x0, false⟩, -- POW_REG word 2
  ⟨0x10C, [(0x10, 8)], 0x0, 0x0, 0xC0000000, 0x0, false⟩, -- POW_REG word 3
  ⟨0x200, [], 0xA00, 0xFFFF, 0x0, 0x0, false⟩, -- POW_RAIL word 0
  ⟨0x204, [(0x4, 6)], 0x0, 0xFFFF, 0x0, 0x0, false⟩, -- POW_RAIL word 1
  ⟨0x240, [(0x4, 8)], 0x0, 0x0, 0x0, 0x0, false⟩, -- POW_OP_V
  ⟨0x400, [(0x10, 16)], 0x0, 0x0, 0x0, 0x0, true⟩, -- POW_LOG word 0
  ⟨0x404, [(0x10, 16)], 0x0, 0x0, 0x0, 0x0, false⟩, -- POW_LOG word 1
  ⟨0x408, [(0x10, 16)], 0x0, 0x0, 0x0, 0x0, false⟩, -- POW_LOG word 2
  ⟨0x600, [(0x4, 22)], 0x0, 0x0, 0x0, 0x0, false⟩, -- POW_TEMP
  ⟨0x700, [(0x8, 32)], 0x0, 0x0, 0x0, 0x0, true⟩, -- POW_JOB word 0
  ⟨0x704, [(0x8, 32)], 0x0, 0x0, 0x0, 0x0, false⟩, -- POW_JOB word 1
  ⟨0x800, [], 0x0, 0x0, 0x0, 0x0, true⟩, -- POW_JOB_IDLE word 0
  ⟨0x804, [], 0x0, 0x0, 0x0, 0x0, false⟩] -- POW_JOB_IDLE word 1

/-- The registers of a HUB block (16_startup, R411). -/
def hubRows : List RegRow := [
  ⟨0x0, [], 0x0, 0x0, 0x0, 0x0, false⟩, -- HUB_ID
  ⟨0x4, [], 0x0, 0x0, 0x0, 0x0, false⟩, -- HUB_STATUS
  ⟨0x8, [], 0x0, 0x0, 0x0, 0x0, false⟩, -- HUB_STRAPS
  ⟨0xC, [], 0x0, 0x0, 0x0, 0x0, false⟩, -- HUB_CHECK_RESULT
  ⟨0x10, [], 0x0, 0x0, 0x0, 0x0, false⟩, -- HUB_CHECK_DETAIL
  ⟨0x14, [], 0x30D4, 0xFFFFF, 0x0, 0x0, false⟩, -- HUB_DISABLE
  ⟨0x18, [], 0x0, 0x0, 0x7, 0x0, false⟩, -- HUB_EVENTS
  ⟨0x20, [(0x4, 4)], 0x0, 0x0, 0x0, 0x0, false⟩] -- HUB_FUSE_ID

/-- The registers of a VIGIL block (17_service_life, R424). -/
def vigilRows : List RegRow := [
  ⟨0x0, [], 0x0, 0x0, 0x0, 0x0, false⟩, -- VIG_STATE
  ⟨0x4, [], 0x0, 0x0, 0x0, 0x0, false⟩, -- VIG_REASONS
  ⟨0x8, [], 0x0, 0x0, 0x0, 0x0, false⟩, -- VIG_CAP_RATE
  ⟨0xC, [], 0x0, 0x0, 0x0, 0x0, false⟩, -- VIG_CAP_PATHS
  ⟨0x10, [], 0x0, 0x0, 0x0, 0x0, false⟩, -- VIG_CAP_MEM
  ⟨0x14, [], 0x0, 0x0, 0xF, 0x0, false⟩, -- VIG_EVENTS
  ⟨0x18, [], 0x1904, 0xFFFF, 0x0, 0x0, false⟩, -- VIG_LIMIT
  ⟨0x1C, [], 0x0, 0x0, 0x0, 0x0, false⟩, -- VIG_LOG_CNT
  ⟨0x20, [(0x4, 8)], 0x100, 0x0, 0x0, 0x0, false⟩, -- VIG_CAT_REPAIR
  ⟨0x40, [(0x4, 2)], 0x0, 0x0, 0x0, 0xFFFFFFFF, false⟩, -- VIG_ODB_ECC
  ⟨0x60, [(0x8, 8), (0x4, 2)], 0x0, 0x0, 0x0, 0xFFFFFFFF, false⟩, -- VIG_WING_ECC
  ⟨0xA0, [(0x4, 4)], 0x0, 0x0, 0x0, 0xFFFFFFFF, false⟩] -- VIG_CTRL_UNCORR

/-- The registers of block b of the hub node (Table 1.2); none where the block is unassigned. -/
def hubBlock (b : Nat) : Option (List RegRow) :=
  match b with
  | 0x0 => some hubRows
  | 0x1 => some dcpRows
  | 0x2 => some hpRows
  | 0x3 => some hpRows
  | 0x4 => some almanacRows
  | 0x5 => some timeRows
  | 0x6 => some powerRows
  | 0x7 => some clocksRows
  | 0x8 => some vigilRows
  | 0x9 => some chronicleRows
  | 0xA => some keystoreRows
  | 0xB => some circulationRows
  | 0xC => some replicationRows
  | 0xD => some mirrorRows
  | 0xE => some coreRows
  | _ => none

/-- The registers of block b of a quadrant node (Table 1.3); none where the block is unassigned. -/
def quadBlock (b : Nat) : Option (List RegRow) :=
  if b = 0 then some qctlRows
  else if 0x12 ≤ b ∧ b < 0x14 then some scribesRows
  else if 0x14 ≤ b ∧ b < 0x16 then some progstoreRows
  else if 0x10 ≤ b ∧ b < 0x12 then some accessionRows
  else if 0x3E ≤ b ∧ b < 0x3F then some stacksRows
  else if 0x38 ≤ b ∧ b < 0x3E then some gddrRows
  else if 0x18 ≤ b ∧ b < 0x1A then some tmRows
  else if 0x30 ≤ b ∧ b < 0x34 then some planeRows
  else if 0x20 ≤ b ∧ b < 0x30 then some octetRows
  else if 0x3F ≤ b ∧ b < 0x40 then some fabricRows
  else if 0x1A ≤ b ∧ b < 0x1C then some cipherRows
  else if b = 0x16 then some (catalogueRows ++ cataloguePairRows)
  else if b = 0x17 then some catalogueRows
  else none

/-- The node, block and offset of a control address (R22). -/
def caNode (ca : Nat) : Nat := ca / 2 ^ 28 % 16
def caBlock (ca : Nat) : Nat := ca / 2 ^ 20 % 256
def caOff (ca : Nat) : Nat := ca % 2 ^ 20

/-- The registers of the block a control address names; none for a reserved node or an unassigned block (R14, R20). -/
def blockRows (ca : Nat) : Option (List RegRow) :=
  if caNode ca = 0 then hubBlock (caBlock ca)
  else if 4 ≤ caNode ca ∧ caNode ca ≤ 7 then quadBlock (caBlock ca)
  else none

/-- The register a control address names, if any. -/
def regRow (ca : Nat) : Option RegRow := (blockRows ca).bind (fun rows => rows.find? (fun row => row.hit (caOff ca)))

/-- The control address of an offset in a block of a node (section 5 of the scope chapter). -/
def mkCa (node block off : Nat) : Nat := node * 2 ^ 28 + block * 2 ^ 20 + off

/-- An offset in the block of slice s whose even local slice has block b (Table 1.3). -/
def sliceCa (b s off : Nat) : Nat := mkCa (4 + s / 2) (b + s % 2) off

/-- An offset in the block of octet n. -/
def octCa (n off : Nat) : Nat := mkCa (4 + n / 16) (0x20 + n % 16) off

/-- An offset in the block of plane p. -/
def planeCa (p off : Nat) : Nat := mkCa (4 + p / 4) (0x30 + p % 4) off

/-- An offset in the block of memory port m. -/
def gddrCa (m off : Nat) : Nat := mkCa (4 + m / 6) (0x38 + m % 6) off

namespace Reg

def qctlId (q : Nat) : Nat := mkCa (4 + q) 0x0 (0x0)
def qctlStatus (q : Nat) : Nat := mkCa (4 + q) 0x0 (0x4)
def qctlLinkErrCnt (q : Nat) : Nat := mkCa (4 + q) 0x0 (0x8)
def almCtl : Nat := mkCa 0 0x4 (0x0)
def almStatus : Nat := mkCa 0 0x4 (0x4)
def almTickLo : Nat := mkCa 0 0x4 (0x8)
def almTickHi : Nat := mkCa 0 0x4 (0xC)
def almTickSetLo : Nat := mkCa 0 0x4 (0x10)
def almTickSetHi : Nat := mkCa 0 0x4 (0x14)
def almSync : Nat := mkCa 0 0x4 (0x18)
def almCycles : Nat := mkCa 0 0x4 (0x1C)
def almGrant : Nat := mkCa 0 0x4 (0x20)
def almLimit : Nat := mkCa 0 0x4 (0x24)
def almBudget : Nat := mkCa 0 0x4 (0x28)
def almSyncErrCnt : Nat := mkCa 0 0x4 (0x30)
def almEvents : Nat := mkCa 0 0x4 (0x34)
def scrClStatus (s j : Nat) : Nat := sliceCa 0x12 s (0x0 + 0x40 * j)
def scrCodexVer (s j : Nat) : Nat := sliceCa 0x12 s (0x4 + 0x40 * j)
def scrCodexCrc (s j : Nat) : Nat := sliceCa 0x12 s (0x8 + 0x40 * j)
def scrSpareMap (s j : Nat) : Nat := sliceCa 0x12 s (0xC + 0x40 * j)
def scrRetiredLo (s j : Nat) : Nat := sliceCa 0x12 s (0x10 + 0x40 * j)
def scrRetiredHi (s j : Nat) : Nat := sliceCa 0x12 s (0x14 + 0x40 * j)
def scrMcLast (s j : Nat) : Nat := sliceCa 0x12 s (0x18 + 0x40 * j)
def scrMcCnt (s j : Nat) : Nat := sliceCa 0x12 s (0x1C + 0x40 * j)
def scrEvents (s : Nat) : Nat := sliceCa 0x12 s (0x100)
def psLoadStatus (s j : Nat) : Nat := sliceCa 0x14 s (0x0 + 0x40 * j)
def psImageId (s j : Nat) : Nat := sliceCa 0x14 s (0x4 + 0x40 * j)
def psImageCrc (s j : Nat) : Nat := sliceCa 0x14 s (0x8 + 0x40 * j)
def psInfo (s j : Nat) : Nat := sliceCa 0x14 s (0xC + 0x40 * j)
def psEntrySel (s j : Nat) : Nat := sliceCa 0x14 s (0x10 + 0x40 * j)
def psEntry (s j : Nat) : Nat := sliceCa 0x14 s (0x14 + 0x40 * j)
def psEntryWcet (s j : Nat) : Nat := sliceCa 0x14 s (0x18 + 0x40 * j)
def psScrubCtl (s : Nat) : Nat := sliceCa 0x14 s (0x100)
def psScrubCnt (s : Nat) : Nat := sliceCa 0x14 s (0x104)
def psShadowErr (s : Nat) : Nat := sliceCa 0x14 s (0x108)
def accCtl (s : Nat) : Nat := sliceCa 0x10 s (0x0)
def accStatus (s : Nat) : Nat := sliceCa 0x10 s (0x4)
def accFifo (s : Nat) : Nat := sliceCa 0x10 s (0x8)
def accParse (s : Nat) : Nat := sliceCa 0x10 s (0xC)
def accRecirc (s : Nat) : Nat := sliceCa 0x10 s (0x10)
def accEvents (s : Nat) : Nat := sliceCa 0x10 s (0x14)
def accFifoPeak (s : Nat) : Nat := sliceCa 0x10 s (0x18)
def accPortCfg (s p : Nat) : Nat := sliceCa 0x10 s (0x400 + 0x4 * p)
def accState (s b n w : Nat) : Nat := sliceCa 0x10 s (0x10000 + 0x4000 * b + 0x40 * n + 0x4 * w)
def catCtl (s : Nat) : Nat := sliceCa 0x16 s (0x0)
def catStatus (s : Nat) : Nat := sliceCa 0x16 s (0x4)
def catLocked (s : Nat) : Nat := sliceCa 0x16 s (0x8)
def catFlap (s : Nat) : Nat := sliceCa 0x16 s (0xC)
def catFreeze (s : Nat) : Nat := sliceCa 0x16 s (0x10)
def catAge (s : Nat) : Nat := sliceCa 0x16 s (0x14)
def catEvents (s : Nat) : Nat := sliceCa 0x16 s (0x18)
def catDirResult (q : Nat) : Nat := mkCa (4 + q) 0x16 (0x1C)
def catCnt (s c : Nat) : Nat := sliceCa 0x16 s (0x40 + 0x4 * c)
def catDir (q t w : Nat) : Nat := mkCa (4 + q) 0x16 (0x1000 + 0x20 * t + 0x4 * w)
def circEvents : Nat := mkCa 0 0xB (0x0)
def circHostFreeNum : Nat := mkCa 0 0xB (0x8)
def circHostFreeCmd : Nat := mkCa 0 0xB (0xC)
def circHostFreeResult : Nat := mkCa 0 0xB (0x10)
def circPoolCfg (p : Nat) : Nat := mkCa 0 0xB (0x100 + 0x40 * p)
def circPoolBase (p : Nat) : Nat := mkCa 0 0xB (0x104 + 0x40 * p)
def circPoolCount (p : Nat) : Nat := mkCa 0 0xB (0x108 + 0x40 * p)
def circPoolRing (p : Nat) : Nat := mkCa 0 0xB (0x10C + 0x40 * p)
def circPoolFree (p : Nat) : Nat := mkCa 0 0xB (0x110 + 0x40 * p)
def circPoolLow (p : Nat) : Nat := mkCa 0 0xB (0x114 + 0x40 * p)
def circPoolCnt (p c : Nat) : Nat := mkCa 0 0xB (0x120 + 0x40 * p + 0x4 * c)
def circRegionA (r : Nat) : Nat := mkCa 0 0xB (0x800 + 0x8 * r)
def circRegionB (r : Nat) : Nat := mkCa 0 0xB (0x804 + 0x8 * r)
def circShelveA (k : Nat) : Nat := mkCa 0 0xB (0xA00 + 0x8 * k)
def circShelveB (k : Nat) : Nat := mkCa 0 0xB (0xA04 + 0x8 * k)
def circRecall (p : Nat) : Nat := mkCa 0 0xB (0x1000 + 0x4 * p)
def stkCfg (q : Nat) : Nat := mkCa (4 + q) 0x3E (0x0)
def stkCtl (q : Nat) : Nat := mkCa (4 + q) 0x3E (0x4)
def stkStatus (q : Nat) : Nat := mkCa (4 + q) 0x3E (0x8)
def stkPostDrop (q : Nat) : Nat := mkCa (4 + q) 0x3E (0xC)
def stkEvents (q : Nat) : Nat := mkCa (4 + q) 0x3E (0x10)
def gdStatus (g : Nat) : Nat := gddrCa g (0x0)
def gdCtl (g : Nat) : Nat := gddrCa g (0x4)
def gdLimit (g : Nat) : Nat := gddrCa g (0x8)
def gdRetryCnt (g : Nat) : Nat := gddrCa g (0xC)
def gdUncorrCnt (g : Nat) : Nat := gddrCa g (0x10)
def gdPageCrcCnt (g : Nat) : Nat := gddrCa g (0x14)
def replCfg : Nat := mkCa 0 0xC (0x0)
def replStatus : Nat := mkCa 0 0xC (0x4)
def replEvents : Nat := mkCa 0 0xC (0x8)
def replGroup (g : Nat) : Nat := mkCa 0 0xC (0x40000 + 0x4 * g)
def replEntry (e w : Nat) : Nat := mkCa 0 0xC (0x80000 + 0x8 * e + 0x4 * w)
def mirEvents : Nat := mkCa 0 0xD (0x0)
def mirBadCnt : Nat := mkCa 0 0xD (0x4)
def mirSession (m w : Nat) : Nat := mkCa 0 0xD (0x100 + 0x10 * m + 0x4 * w)
def mirPort (p : Nat) : Nat := mkCa 0 0xD (0x1000 + 0x4 * p)
def coreCfg : Nat := mkCa 0 0xE (0x0)
def coreReseq : Nat := mkCa 0 0xE (0x4)
def coreLimits : Nat := mkCa 0 0xE (0x8)
def coreStatus : Nat := mkCa 0 0xE (0xC)
def coreEvents : Nat := mkCa 0 0xE (0x10)
def coreWred (w d : Nat) : Nat := mkCa 0 0xE (0x400 + 0x10 * w + 0x4 * d)
def coreSysport (p : Nat) : Nat := mkCa 0 0xE (0x2000 + 0x4 * p)
def tmMeter (s m w : Nat) : Nat := sliceCa 0x18 s (0x0 + 0x10 * m + 0x4 * w)
def tmNode (s base n w : Nat) : Nat := sliceCa 0x18 s (base + 0x10 * n + 0x4 * w)
def tmPfcTh (s p c : Nat) : Nat := sliceCa 0x18 s (0x7C000 + 0x20 * p + 0x4 * c)
def tmPfcCells (s p c : Nat) : Nat := sliceCa 0x18 s (0x7D000 + 0x20 * p + 0x4 * c)
def tmCfg (s : Nat) : Nat := sliceCa 0x18 s (0x7F000)
def tmEvents (s : Nat) : Nat := sliceCa 0x18 s (0x7F004)
def tmQueue (s i w : Nat) : Nat := sliceCa 0x18 s (0x80000 + 0x10 * i + 0x4 * w)
def plCtl (pl : Nat) : Nat := planeCa pl (0x0)
def plStatus (pl : Nat) : Nat := planeCa pl (0x4)
def plLimit (pl : Nat) : Nat := planeCa pl (0x8)
def plHcrcCnt (pl : Nat) : Nat := planeCa pl (0xC)
def plEvents (pl : Nat) : Nat := planeCa pl (0x10)
def octMode (o : Nat) : Nat := octCa o (0x0)
def octStatus (o : Nat) : Nat := octCa o (0x4)
def octEvents (o : Nat) : Nat := octCa o (0x8)
def octRclk (o : Nat) : Nat := octCa o (0xC)
def octEyeCtl (o : Nat) : Nat := octCa o (0x10)
def octEyeAddrLo (o : Nat) : Nat := octCa o (0x14)
def octEyeAddrHi (o : Nat) : Nat := octCa o (0x18)
def octEyeStatus (o : Nat) : Nat := octCa o (0x1C)
def octPortCfg (o i : Nat) : Nat := octCa o (0x100 + 0x40 * i)
def octPortFrame (o i : Nat) : Nat := octCa o (0x104 + 0x40 * i)
def octPortPfc (o i : Nat) : Nat := octCa o (0x108 + 0x40 * i)
def octPortStatus (o i : Nat) : Nat := octCa o (0x10C + 0x40 * i)
def octPortCwCorr (o i : Nat) : Nat := octCa o (0x110 + 0x40 * i)
def octPortCwUncorr (o i : Nat) : Nat := octCa o (0x114 + 0x40 * i)
def octPortSymCorr (o i : Nat) : Nat := octCa o (0x118 + 0x40 * i)
def octPortPauseRx (o i : Nat) : Nat := octCa o (0x11C + 0x40 * i)
def octPortPauseTx (o i : Nat) : Nat := octCa o (0x120 + 0x40 * i)
def octLaneCfg (o l : Nat) : Nat := octCa o (0x400 + 0x20 * l)
def octLaneStatus (o l : Nat) : Nat := octCa o (0x404 + 0x20 * l)
def fabCtl (q : Nat) : Nat := mkCa (4 + q) 0x3F (0x0)
def fabCredit (q : Nat) : Nat := mkCa (4 + q) 0x3F (0x4)
def fabLoss (q : Nat) : Nat := mkCa (4 + q) 0x3F (0x8)
def fabEvents (q : Nat) : Nat := mkCa (4 + q) 0x3F (0xC)
def fabStaleCnt (q : Nat) : Nat := mkCa (4 + q) 0x3F (0x10)
def fabUnknownCnt (q : Nat) : Nat := mkCa (4 + q) 0x3F (0x14)
def fabLaneCfg (q l : Nat) : Nat := mkCa (4 + q) 0x3F (0x100 + 0x40 * l)
def fabLaneCtl (q l : Nat) : Nat := mkCa (4 + q) 0x3F (0x104 + 0x40 * l)
def fabLaneStatus (q l : Nat) : Nat := mkCa (4 + q) 0x3F (0x108 + 0x40 * l)
def fabLaneRtt (q l : Nat) : Nat := mkCa (4 + q) 0x3F (0x10C + 0x40 * l)
def fabLaneCwCorr (q l : Nat) : Nat := mkCa (4 + q) 0x3F (0x110 + 0x40 * l)
def fabLaneCwUncorr (q l : Nat) : Nat := mkCa (4 + q) 0x3F (0x114 + 0x40 * l)
def fabLaneChkFail (q l : Nat) : Nat := mkCa (4 + q) 0x3F (0x118 + 0x40 * l)
def fabLaneHcrc (q l : Nat) : Nat := mkCa (4 + q) 0x3F (0x11C + 0x40 * l)
def fabLaneReachLo (q l : Nat) : Nat := mkCa (4 + q) 0x3F (0x120 + 0x40 * l)
def fabLaneReachHi (q l : Nat) : Nat := mkCa (4 + q) 0x3F (0x124 + 0x40 * l)
def fabLaneTx (q l : Nat) : Nat := mkCa (4 + q) 0x3F (0x128 + 0x40 * l)
def cipSaSel (s : Nat) : Nat := sliceCa 0x1A s (0x0)
def cipSaCmd (s : Nat) : Nat := sliceCa 0x1A s (0x4)
def cipSaResult (s : Nat) : Nat := sliceCa 0x1A s (0x8)
def cipGapLo (s : Nat) : Nat := sliceCa 0x1A s (0xC)
def cipGapHi (s : Nat) : Nat := sliceCa 0x1A s (0x10)
def cipEvents (s : Nat) : Nat := sliceCa 0x1A s (0x14)
def cipMisuseCnt (s : Nat) : Nat := sliceCa 0x1A s (0x18)
def cipSaData (s w : Nat) : Nat := sliceCa 0x1A s (0x100 + 0x4 * w)
def cipXfer (s w : Nat) : Nat := sliceCa 0x1A s (0x200 + 0x4 * w)
def cipPortCfg (s p : Nat) : Nat := sliceCa 0x1A s (0x400 + 0x8 * p)
def cipPortSa (s p : Nat) : Nat := sliceCa 0x1A s (0x404 + 0x8 * p)
def cipRxsc (s p c h : Nat) : Nat := sliceCa 0x1A s (0x800 + 0x20 * p + 0x8 * c + 0x4 * h)
def keySlotSel : Nat := mkCa 0 0xA (0x0)
def keyStatus : Nat := mkCa 0 0xA (0x4)
def keyData (i : Nat) : Nat := mkCa 0 0xA (0x10 + 0x4 * i)
def keyCommit : Nat := mkCa 0 0xA (0x30)
def keyErase : Nat := mkCa 0 0xA (0x34)
def ksEvents : Nat := mkCa 0 0xA (0x38)
def timeDFrac (d : Nat) : Nat := mkCa 0 0x5 (0x0 + 0x40 * d)
def timeDNs (d : Nat) : Nat := mkCa 0 0x5 (0x4 + 0x40 * d)
def timeDIncFrac (d : Nat) : Nat := mkCa 0 0x5 (0x8 + 0x40 * d)
def timeDIncNs (d : Nat) : Nat := mkCa 0 0x5 (0xC + 0x40 * d)
def timeDServo (d : Nat) : Nat := mkCa 0 0x5 (0x10 + 0x40 * d)
def timeDAdjMax (d : Nat) : Nat := mkCa 0 0x5 (0x14 + 0x40 * d)
def timeDOfsFrac (d : Nat) : Nat := mkCa 0 0x5 (0x18 + 0x40 * d)
def timeDOfsNs (d : Nat) : Nat := mkCa 0 0x5 (0x1C + 0x40 * d)
def timeDAdj (d : Nat) : Nat := mkCa 0 0x5 (0x20 + 0x40 * d)
def timeDInteg (d : Nat) : Nat := mkCa 0 0x5 (0x24 + 0x40 * d)
def timeCtl : Nat := mkCa 0 0x5 (0x100)
def timeStatus : Nat := mkCa 0 0x5 (0x104)
def timeVal (v h : Nat) : Nat := mkCa 0 0x5 (0x108 + 0x8 * v + 0x4 * h)
def timeEvents : Nat := mkCa 0 0x5 (0x120)
def timeCfg : Nat := mkCa 0 0x5 (0x124)
def tsqStatus : Nat := mkCa 0 0x5 (0x200)
def tsqRelease : Nat := mkCa 0 0x5 (0x204)
def tsqLost : Nat := mkCa 0 0x5 (0x208)
def tsqEntry (i w : Nat) : Nat := mkCa 0 0x5 (0x400 + 0x10 * i + 0x4 * w)
def evtPin (k w : Nat) : Nat := mkCa 0 0x5 (0x800 + 0x20 * k + 0x4 * w)
def timePort (p w : Nat) : Nat := mkCa 0 0x5 (0x1000 + 0x8 * p + 0x4 * w)
def dcpStatus : Nat := mkCa 0 0x1 (0x0)
def dcpEpoch : Nat := mkCa 0 0x1 (0x4)
def dcpGrant : Nat := mkCa 0 0x1 (0x8)
def dcpEtype : Nat := mkCa 0 0x1 (0xC)
def dcpHostport : Nat := mkCa 0 0x1 (0x10)
def dcpKeepalive : Nat := mkCa 0 0x1 (0x14)
def dcpQmaxSojourn : Nat := mkCa 0 0x1 (0x18)
def dcpNoticeSeq : Nat := mkCa 0 0x1 (0x1C)
def dcpNoticeAck : Nat := mkCa 0 0x1 (0x20)
def dcpNoticeStatus : Nat := mkCa 0 0x1 (0x24)
def dcpNoticeLost : Nat := mkCa 0 0x1 (0x28)
def dcpBadFrame : Nat := mkCa 0 0x1 (0x2C)
def dcpEvents : Nat := mkCa 0 0x1 (0x30)
def hpCfg (hp : Nat) : Nat := mkCa 0 (2 + hp) (0x0)
def hpStatus (hp : Nat) : Nat := mkCa 0 (2 + hp) (0x4)
def hpMacLo (hp : Nat) : Nat := mkCa 0 (2 + hp) (0x8)
def hpMacHi (hp : Nat) : Nat := mkCa 0 (2 + hp) (0xC)
def hpPeerLo (hp : Nat) : Nat := mkCa 0 (2 + hp) (0x10)
def hpPeerHi (hp : Nat) : Nat := mkCa 0 (2 + hp) (0x14)
def hpRxDcp (hp : Nat) : Nat := mkCa 0 (2 + hp) (0x18)
def hpRxInj (hp : Nat) : Nat := mkCa 0 (2 + hp) (0x1C)
def hpRxDrop (hp : Nat) : Nat := mkCa 0 (2 + hp) (0x20)
def hpTx (hp : Nat) : Nat := mkCa 0 (2 + hp) (0x24)
def chrCfg : Nat := mkCa 0 0x9 (0x0)
def chrStatus : Nat := mkCa 0 0x9 (0x4)
def chrWrIdx : Nat := mkCa 0 0x9 (0x8)
def chrRdIdx : Nat := mkCa 0 0x9 (0xC)
def chrLapCnt : Nat := mkCa 0 0x9 (0x10)
def chrSkipCnt : Nat := mkCa 0 0x9 (0x14)
def chrEvents : Nat := mkCa 0 0x9 (0x18)
def chrWin : Nat := mkCa 0 0x9 (0x20)
def chrIoam : Nat := mkCa 0 0x9 (0x30)
def chrIoamSec : Nat := mkCa 0 0x9 (0x34)
def chrSliceQ (n : Nat) : Nat := mkCa 0 0x9 (0x40 + 0x8 * n)
def chrSliceSa (n : Nat) : Nat := mkCa 0 0x9 (0x44 + 0x8 * n)
def chrThr (t w : Nat) : Nat := mkCa 0 0x9 (0x1000 + 0x10 * t + 0x4 * w)
def chrWinData (i h : Nat) : Nat := mkCa 0 0x9 (0x20000 + 0x8 * i + 0x4 * h)
def clkStatus : Nat := mkCa 0 0x7 (0x0)
def clkEvents : Nat := mkCa 0 0x7 (0x4)
def clkRefCnt : Nat := mkCa 0 0x7 (0x8)
def clkGateSel : Nat := mkCa 0 0x7 (0x10)
def clkGateCmd : Nat := mkCa 0 0x7 (0x14)
def clkGateResult : Nat := mkCa 0 0x7 (0x18)
def clkGated (q : Nat) : Nat := mkCa 0 0x7 (0x20 + 0x4 * q)
def powCtl : Nat := mkCa 0 0x6 (0x0)
def powStatus : Nat := mkCa 0 0x6 (0x4)
def powCap : Nat := mkCa 0 0x6 (0x8)
def powTherm : Nat := mkCa 0 0x6 (0xC)
def powExt : Nat := mkCa 0 0x6 (0x10)
def powEvents : Nat := mkCa 0 0x6 (0x14)
def powReg (r w : Nat) : Nat := mkCa 0 0x6 (0x100 + 0x10 * r + 0x4 * w)
def powRail (i : Nat) : Nat := mkCa 0 0x6 (0x200 + 0x4 * i)
def powOpV (k : Nat) : Nat := mkCa 0 0x6 (0x240 + 0x4 * k)
def powLog (i w : Nat) : Nat := mkCa 0 0x6 (0x400 + 0x10 * i + 0x4 * w)
def powTemp (j : Nat) : Nat := mkCa 0 0x6 (0x600 + 0x4 * j)
def powJob (k h : Nat) : Nat := mkCa 0 0x6 (0x700 + 0x8 * k + 0x4 * h)
def powJobIdle (h : Nat) : Nat := mkCa 0 0x6 (0x800 + 0x4 * h)
def hubId : Nat := mkCa 0 0x0 (0x0)
def hubStatus : Nat := mkCa 0 0x0 (0x4)
def hubStraps : Nat := mkCa 0 0x0 (0x8)
def hubCheckResult : Nat := mkCa 0 0x0 (0xC)
def hubCheckDetail : Nat := mkCa 0 0x0 (0x10)
def hubDisable : Nat := mkCa 0 0x0 (0x14)
def hubEvents : Nat := mkCa 0 0x0 (0x18)
def hubFuseId (i : Nat) : Nat := mkCa 0 0x0 (0x20 + 0x4 * i)
def vigState : Nat := mkCa 0 0x8 (0x0)
def vigReasons : Nat := mkCa 0 0x8 (0x4)
def vigCapRate : Nat := mkCa 0 0x8 (0x8)
def vigCapPaths : Nat := mkCa 0 0x8 (0xC)
def vigCapMem : Nat := mkCa 0 0x8 (0x10)
def vigEvents : Nat := mkCa 0 0x8 (0x14)
def vigLimit : Nat := mkCa 0 0x8 (0x18)
def vigLogCnt : Nat := mkCa 0 0x8 (0x1C)
def vigCatRepair (w : Nat) : Nat := mkCa 0 0x8 (0x20 + 0x4 * w)
def vigOdbEcc (h : Nat) : Nat := mkCa 0 0x8 (0x40 + 0x4 * h)
def vigWingEcc (w h : Nat) : Nat := mkCa 0 0x8 (0x60 + 0x8 * w + 0x4 * h)
def vigCtrlUncorr (q : Nat) : Nat := mkCa 0 0x8 (0xA0 + 0x4 * q)

end Reg

end Sys2Proof.Machine
end

