-- ==== Sys2Proof/Machine/Ops.lean ====
section
/-! DEFINITION. The named operations over the whole machine: registers, counters, events, notices, Vigil, threads and
the reading of the output timescale. -/

namespace Sys2Proof.Machine

/-- What a command answers. -/
abbrev Res := Host.Outcome State Fault Refusal

/-! ### Registers -/

/-- The reset value of a register; 0 where no register is assigned (R14). -/
def regDefault (ca : Nat) : Word32 := (regRow ca).elim 0 (fun r => r.reset)

/-- The stored value of a register. -/
def State.reg (s : State) (ca : Nat) : Word32 := SMap.find (regDefault ca) s.regs ca

/-- The value of a written register as the data plane acts on it (R16, R33). -/
def State.cfg (s : State) (ca : Nat) : Word32 := SMap.find (regDefault ca) s.dp ca

/-- Bits [hi:lo] of a register as the data plane acts on it. -/
def State.cfgF (s : State) (ca hi lo : Nat) : Nat := bits (s.cfg ca) hi lo

/-- Bit n of a register as the data plane acts on it. -/
def State.cfgB (s : State) (ca n : Nat) : Bool := bit (s.cfg ca) n

/-- Set the stored value of a register. -/
def State.setReg (s : State) (ca : Nat) (v : Word32) : State :=
  { s with regs := SMap.set (regDefault ca) s.regs ca v }

/-- Set the stored value of a register and what the data plane sees, at once. -/
def State.setRegNow (s : State) (ca : Nat) (v : Word32) : State :=
  { s with regs := SMap.set (regDefault ca) s.regs ca v, dp := SMap.set (regDefault ca) s.dp ca v }

/-- Set bits [hi:lo] of a stored register. -/
def State.setRegF (s : State) (ca hi lo v : Nat) : State := s.setReg ca (setBits (s.reg ca) hi lo v)

/-- The lowest word of a wide value, at ca, was written: it is held until the upper word is written, and done is the word
on which the device goes on acting (R15). A second write before that changes only what is held. -/
def State.holdWide (s : State) (ca : Nat) (done : Word32) : State :=
  if s.wideHeld.any (fun x => x.1 == ca) then s else { s with wideHeld := s.wideHeld ++ [(ca, done)] }

/-- The upper word of a wide value, at ca, was written: its lowest word is held no more (R15). -/
def State.freeWide (s : State) (ca : Nat) : State :=
  { s with wideHeld := s.wideHeld.filter (fun x => decide (x.1 + 4 ≠ ca)) }

/-- An event sets a bit of a register. -/
def State.setEv (s : State) (ca n : Nat) : State := s.setReg ca (setBits (s.reg ca) n n 1)

/-- The device clears a bit that it is said to clear, in both views. -/
def State.clrBit (s : State) (ca n : Nat) : State :=
  { s with regs := SMap.set (regDefault ca) s.regs ca (setBits (s.reg ca) n n 0),
           dp := SMap.set (regDefault ca) s.dp ca (setBits (s.cfg ca) n n 0) }

/-- Add to a 32-bit counter register that saturates at 0xFFFF_FFFF. -/
def State.bump (s : State) (ca n : Nat) : State := s.setReg ca (BitVec.ofNat 32 (Nat.min ((s.reg ca).toNat + n) 0xFFFFFFFF))

/-! ### Phases -/

/-- The code of a phase (Table 16.3). -/
def Phase.code : Phase → Nat
  | .coldWait => 0 | .aonUp => 1 | .refCheck => 2 | .coreUp => 3 | .memTrain => 4 | .hostUp => 5 | .loaded => 6
  | .checking => 7 | .running => 8 | .disabling => 9 | .halted => 10

/-- The device is RUNNING. -/
def State.running (s : State) : Bool := s.boot.phase == .running

/-- The core runs: from CORE_UP onward and not HALTED. -/
def State.coreOn (s : State) : Bool := decide (3 ≤ s.boot.phase.code) && decide (s.boot.phase.code ≤ 9)

/-- Traffic flows: RUNNING or DISABLING. -/
def State.flowing (s : State) : Bool := s.boot.phase == .running || s.boot.phase == .disabling

/-- A strap field of HUB_STRAPS as latched (Table 16.2). -/
def State.strapF (s : State) (hi lo : Nat) : Nat := bits s.boot.straps hi lo

/-- TEST_MODE_N is low. -/
def State.testMode (s : State) : Bool := !bit s.boot.straps 9

/-- The tick count as a number. -/
def State.now (s : State) : Nat := s.alm.tick.toNat

/-! ### Counters (chapter 14) -/

/-- Add to a device counter modulo 2^64 (R354). -/
def State.addCtr (s : State) (n v : Nat) : State :=
  { s with ctrs := { s.ctrs with ctr := SMap.set 0 s.ctrs.ctr n (SMap.find 0 s.ctrs.ctr n + BitVec.ofNat 64 v) } }

/-- Number of port counter c of a port (Table 14.1). -/
def portCtr (port c : Nat) : Nat := 0x20000 + 32 * port + c

/-- Number of a drop-reason counter (R360). -/
def dropCtr (site code : Nat) : Nat := 0x24000 + 256 * site + code

/-- Number of table counter c (Table 14.1). -/
def tableCtr (pair table c : Nat) : Nat := 0x25000 + 1024 * pair + 4 * table + c

/-- Number of pool counter c (Table 14.1). -/
def poolCtr (pool c : Nat) : Nat := 0x26000 + 16 * pool + c

/-- Number of counter k of the bank of slice s (Table 14.1, R358). -/
def bankCtr (slice k : Nat) : Nat := 0x38000 + 0x5000 * slice + k

/-- The site that is the hub (R359). -/
def hubSite : Nat := 8

/-- A drop is counted at its site under its reason (R149, R359, R360). -/
def State.countDrop (s : State) (site code : Nat) : State := s.addCtr (dropCtr site code) 1

/-- Whether a device counter number is counted at all; numbers of reserved ranges read as zero (R355). -/
def ctrExists (n : Nat) : Bool :=
  decide (n < 0x26100) || (decide (0x28000 ≤ n) && decide (n < 0x60000))

/-- Slot of an object in a counting window [first, first + count), if it is inside (R358). -/
def winSlot (first count i : Nat) : Option Nat := if first ≤ i ∧ i < first + count then some (i - first) else none

/-- A frame of n bytes passed by local queue i of a slice is counted in its window (R358). -/
def State.countQueue (s : State) (slice i n : Nat) : State :=
  let w := s.cfg (Reg.chrSliceQ slice)
  match winSlot (bits w 30 16) (bits w 13 0) i with
  | some m => (s.addCtr (bankCtr slice (2 * m)) 1).addCtr (bankCtr slice (2 * m + 1)) n
  | none => s

/-- A frame of n bytes passed by context i of a slice is counted in its window (R358). -/
def State.countSa (s : State) (slice i n : Nat) : State :=
  let q := bits (s.cfg (Reg.chrSliceQ slice)) 13 0
  let w := s.cfg (Reg.chrSliceSa slice)
  match winSlot (bits w 30 16) (bits w 13 0) i with
  | some m => (s.addCtr (bankCtr slice (2 * q + 2 * m)) 1).addCtr (bankCtr slice (2 * q + 2 * m + 1)) n
  | none => s

/-! ### The output timescale (chapter 12) -/

/-- Length of one tick in units of 2^-32 ns. -/
def tickSpan : Nat := 160 * 2 ^ 32

/-- O when it has advanced by dt since the last tick boundary (R322, R324). -/
def State.oAt (s : State) (dt : Word64) : Word64 :=
  (if s.time.active = 0 then s.time.d0 else s.time.d1) + BitVec.ofInt 64 s.time.r + dt

/-- O, J and the active domain at an instant d before the end of the newest of some past ticks. -/
def sfdBack : List TimeMark → Word64 → Word64 × Word64 × Nat → Word64 × Word64 × Nat
  | [], d, (o, j, a) => (o - d, j, a)
  | m :: ms, d, _ =>
    if d ≤ m.adv then (m.o - d, m.j, m.active) else sfdBack ms (d - m.adv) (m.o - m.adv, m.j, m.active)

/-- O, J and the active domain at the start of a frame that lies back before an instant dt of this tick (R326, R327). -/
def State.sfd (s : State) (dt back : Word64) : Word64 × Word64 × Nat :=
  if back ≤ dt then (s.oAt (dt - back), s.time.j, s.time.active)
  else sfdBack s.time.past (back - dt) (s.oAt 0, s.time.j, s.time.active)

/-- The ns field of a time value. -/
def nsOf (v : Word64) : Word32 := BitVec.ofNat 32 (v.toNat / 2 ^ 32)

/-- A free value: the n-th value that the manual does not state (the free counter is the model's own). -/
def State.nextFree (s : State) : State := { s with free := s.free + 1 }

/-! ### Notices (R351, R352) -/

/-- Queue one notice with a given ns stamp, or count it lost (R351). -/
def State.noticeAt (s : State) (type : Nat) (ns : Word32) (body : List Byte) : State :=
  let d := s.dcp
  if d.notices.length ≥ 1024 then
    ((({ s with dcp := { d with lostNow := d.lostNow + 1 } }).bump Reg.dcpNoticeLost 1).setEv Reg.dcpEvents 2)
  else
    { s with dcp := { d with
        notices := d.notices ++ [⟨d.nextNum, BitVec.ofNat 16 type, BitVec.ofNat 32 s.now, ns, body⟩],
        nextNum := d.nextNum + 1 } }

/-- Where inside its tick an event without a stated time falls. FREE VALUE (log 12). -/
def State.eventDt (s : State) : Word64 := BitVec.ofNat 64 ((Config.freeWord s.free).toNat % tickSpan)

/-- The device generates a notice (R351). -/
def State.notice (s : State) (type : Nat) (body : List Byte) : State :=
  (s.noticeAt type (nsOf (s.oAt s.eventDt)) body).nextFree

/-! ### Vigil (chapter 17) -/

/-- The replace reason an event raises by itself (Table 17.2), as a mask bit. -/
def vigReason (event : Nat) : Option Nat :=
  if event = 0x0002 then some 0
  else if event = 0x0020 then some 2
  else if event = 0x0022 then some 3
  else if event = 0x0040 then some 4
  else if event = 0x0030 then some 5
  else if event = 0x0032 then some 6
  else none

/-- Life-log entries burnt before this power-up, at most 128 (R418). -/
def lifeBurnt : Nat := min 128 Config.lifeUsed.toNat

/-- A Vigil event: reasons is the mask of replace reasons it raises, fail whether it is a failure cause. It is logged,
a VIGIL notice is sent, and the state moves forward (R414, R418). -/
def State.vigilRaise (s : State) (event object reasons : Nat) (fail : Bool) (ns : Word32) : State :=
  let v := s.vigil
  let mask := v.reasons ||| BitVec.ofNat 7 reasons
  let st := if fail then 2 else if mask ≠ 0 ∧ v.state < 1 then 1 else v.state
  let e : VigEntry := { tick := s.alm.tick, event := BitVec.ofNat 16 event, state := st, object := BitVec.ofNat 32 object }
  let first := (decide (reasons ≠ 0) || fail) && !(v.seen.contains (event, object))
  let room := decide (lifeBurnt + v.life.length + v.burning.length < 128)
  let s1 := { s with vigil := { v with
    state := st
    reasons := mask
    log := (v.log ++ [e]).drop ((v.log.length + 1) - 256)
    seen := if first then v.seen ++ [(event, object)] else v.seen
    burning := if first && room then v.burning ++ [e] else v.burning } }
  let s2 := s1.setEv Reg.vigEvents 0
  let s3 := if first && !room then s2.setEv Reg.vigEvents 3 else s2
  let s4 := if st = 1 ∧ v.state = 0 then s3.setEv Reg.vigEvents 1 else s3
  let s5 := if st = 2 ∧ v.state ≠ 2 then s4.setEv Reg.vigEvents 2 else s4
  s5.noticeAt 0x0060 ns ([BitVec.ofNat 8 st, 0] ++ beBytes 2 event ++ beBytes 4 object)

/-- A Vigil event raised inside another command. -/
def State.vigil' (s : State) (event object : Nat) : State :=
  (s.vigilRaise event object ((vigReason event).elim 0 (fun b => 2 ^ b)) false (nsOf (s.oAt s.eventDt))).nextFree

/-- The ticks of the last 2^20 among recorded ones, with this one added. -/
def recentTicks (l : List Nat) (now span : Nat) : List Nat := l.filter (fun t => decide (now < t + span)) ++ [now]

/-- UECC_LIMIT errors of one object within 2^20 ticks raise ECC_REPEAT (Table 17.2). -/
def State.eccRepeat (s : State) (ticks : List Nat) (object : Nat) : State :=
  let lim := bits (s.cfg Reg.vigLimit) 7 0
  if lim ≠ 0 ∧ lim ≤ ticks.length then s.vigil' 0x0040 object else s

/-! ### Threads and clusters (chapter 3) -/

/-- The number of a thread. -/
def tidIdx (t : Tid) : Nat := 512 * t.cluster.val + 8 * t.scribe.val + t.thread.val

/-- The number of a logical Scribe. -/
def scribeIdx (cluster scribe : Nat) : Nat := 64 * cluster + scribe

/-- The slice of a cluster (R17). -/
def sliceOf (cluster : Nat) : Nat := cluster / 4

/-- A thread. -/
def State.thread (s : State) (t : Tid) : Thread := SMap.find Thread.idle s.threads (tidIdx t)

/-- Replace a thread. -/
def State.setThread (s : State) (t : Tid) (th : Thread) : State :=
  { s with threads := SMap.set Thread.idle s.threads (tidIdx t) th }

/-- A thread by its number. -/
def State.threadN (s : State) (i : Nat) : Thread := SMap.find Thread.idle s.threads i

/-- Replace a thread by its number. -/
def State.setThreadN (s : State) (i : Nat) (th : Thread) : State :=
  { s with threads := SMap.set Thread.idle s.threads i th }

/-- A cluster. -/
def State.cluster (s : State) (k : Nat) : Cluster := SMap.find Cluster.reset s.clusters k

/-- Replace a cluster. -/
def State.setCluster (s : State) (k : Nat) (c : Cluster) : State :=
  { s with clusters := SMap.set Cluster.reset s.clusters k c }

/-- Bytes of a waiting packet: 128 and its window bytes rounded up to 64 (R142). -/
def Pkt.fifoBytes (p : Pkt) : Nat := 128 + (min 256 p.data.length + 63) / 64 * 64

/-- Bytes of waiting packets. -/
def fifoSum (l : List Pkt) : Nat := (l.map Pkt.fifoBytes).sum

/-- A slice with the extremes of its FIFO kept. -/
def Slice.note (x : Slice) : Slice := { x with hi := max x.hi (fifoSum x.fifo), lo := min x.lo (fifoSum x.fifo) }

/-- A slice's Accession and dispatcher. -/
def State.slice (s : State) (i : Nat) : Slice := SMap.find Slice.reset s.slices i

/-- Replace a slice's Accession and dispatcher. -/
def State.setSlice (s : State) (i : Nat) (x : Slice) : State :=
  { s with slices := SMap.set Slice.reset s.slices i x.note }

/-- A wing. -/
def State.wing (s : State) (w : Nat) : Wing := SMap.find Wing.reset s.wings w

/-- Replace a wing. -/
def State.setWing (s : State) (w : Nat) (x : Wing) : State := { s with wings := SMap.set Wing.reset s.wings w x }

/-- An Ethernet port. -/
def State.port (s : State) (p : Nat) : Port := SMap.find Port.reset s.ports p

/-- Replace an Ethernet port. -/
def State.setPort (s : State) (p : Nat) (x : Port) : State := { s with ports := SMap.set Port.reset s.ports p x }

/-- A queue. -/
def State.queue (s : State) (q : Nat) : Queue := SMap.find Queue.reset s.tm.queues q

/-- Cells in the shelved segment. -/
def Queue.shelved (q : Queue) : Nat := (q.pages.map (fun x => x.cells)).sum

/-- Depth of a queue: the cells in the head, in the shelved segment and in the tail (R234). -/
def Queue.depth (q : Queue) : Nat := q.head + q.shelved + q.tail

/-- A queue with the extremes of its depth kept. -/
def Queue.note (q : Queue) : Queue := { q with hi := max q.hi q.depth, lo := min q.lo q.depth }

/-- Replace a queue. -/
def State.setQueue (s : State) (q : Nat) (x : Queue) : State :=
  { s with tm := { s.tm with queues := SMap.set Queue.reset s.tm.queues q x.note } }

/-- Replace the residue. -/
def State.setResidue (s : State) (l : List Copy) : State :=
  { s with tm := { s.tm with residue := l, resHi := max s.tm.resHi l.length, resLo := min s.tm.resLo l.length } }

/-- What the part sends out is appended to the model's record. -/
def State.emit (s : State) (o : Out) : State := { s with out := s.out ++ [o] }

/-! ### Call slips (R66) -/

/-- Byte o of a call slip; 0 past offset 127 (R110). -/
def slipByte (slip : BitVec 1024) (o : Nat) : Byte := if o < 128 then slip.extractLsb' (8 * o) 8 else 0

/-- Replace byte o of a call slip. -/
def slipPut (slip : BitVec 1024) (o : Nat) (b : Byte) : BitVec 1024 :=
  if o < 128 then
    (slip &&& ~~~((0xFF : BitVec 1024) <<< (8 * o))) ||| (b.zeroExtend 1024 <<< (8 * o))
  else slip

/-- n bytes of a call slip from offset o, little-endian (R66). -/
def slipGet (slip : BitVec 1024) (o n : Nat) : Nat := leNat ((List.range n).map (fun k => slipByte slip (o + k)))

/-- Set n bytes of a call slip from offset o, little-endian, with no access rule (the device's own writes). -/
def slipSet (slip : BitVec 1024) (o n v : Nat) : BitVec 1024 :=
  (List.range n).foldl (fun sl k => slipPut sl (o + k) (BitVec.ofNat 8 (v / 256 ^ k))) slip

/-- Byte k of an extract or a packed byte string. -/
def extByte (e : BitVec 1024) (k : Nat) : Byte := slipByte e k

end Sys2Proof.Machine
end

