-- ==== Sys2Proof/Machine/Operands.lean ====
section
/-! DEFINITION. The operands of Dinum words: reading, writing, register sequences and the header window (R108 to R112). -/

namespace Sys2Proof.Machine

/-- Byte o of the header window; 0 at or beyond the window length (R110). -/
def winByte (th : Thread) (o : Nat) : Byte := th.win.getD o 0

/-- n bytes of the window from offset o, big-endian. -/
def winGet (th : Thread) (o n : Nat) : Nat := beNat ((List.range n).map (fun k => winByte th (o + k)))

/-- Write bytes to the window from offset o; writes at or beyond the window length are discarded (R110). -/
def winPut (th : Thread) (o : Nat) (bs : List Byte) : Thread := { th with win := putAt th.win o bs }

/-- HDR_OFF entry i (Table 3.2). -/
def hdrOff (th : Thread) (i : Nat) : Nat := (slipByte th.slip (0x10 + i)).toNat

/-- The bytes of a width code of a relative header operand (Table 4.3). -/
def relWidth (wc : BitVec 2) : Nat := 2 ^ wc.toNat

/-- The bits of call slip byte o that a program of an ingress or egress run may write (Table 3.2, R66, R109). -/
def slipMask (egress : Bool) (o : Nat) : Byte :=
  if 0x10 ≤ o ∧ o < 0x30 then 0xFF
  else if o = 0x40 ∨ o = 0x41 then 0xFF
  else if o = 0x42 then 0x03
  else if o = 0x43 then 0x80
  else if 0x44 ≤ o ∧ o < 0x4A then 0xFF
  else if 0x50 ≤ o ∧ o < 0x70 then 0xFF
  else if egress then 0
  else if o = 0x07 then 0x1F
  else if 0x30 ≤ o ∧ o < 0x37 then 0xFF
  else if 0x38 ≤ o ∧ o < 0x3B then 0xFF
  else if o = 0x3C ∨ o = 0x3D then 0xFF
  else if o = 0x3E then 0x3F
  else if o = 0x3F then 0x0F
  else 0

/-- A program's write of one call slip byte (R66). -/
def slipWrite (egress : Bool) (slip : BitVec 1024) (o : Nat) (b : Byte) : BitVec 1024 :=
  let m := slipMask egress o
  slipPut slip o ((slipByte slip o &&& ~~~m) ||| (b &&& m))

/-- A program's write of bytes to the call slip from offset o. -/
def slipWriteN (egress : Bool) (slip : BitVec 1024) (o : Nat) : List Byte → BitVec 1024
  | [] => slip
  | b :: bs => slipWriteN egress (slipWrite egress slip o b) (o + 1) bs

/-- A lookup register as a program reads it: zero while not valid (R124). -/
def lookVal (th : Thread) (i : Fin 4) : BitVec 128 := if th.l[i].valid then th.l[i].val else 0

/-- A predicate bit. -/
def predBit (th : Thread) (i : Nat) : Bool := bit th.t i

/-- A source operand, read as a 64-bit value (R108, R109, R110). -/
def readOp (th : Thread) : Operand → Word64
  | .reg n => th.g[n]
  | .uimm v => v.zeroExtend 64
  | .simm v => v.signExtend 64
  | .hdrAbs off w => BitVec.ofNat 64 (winGet th off.toNat (w.toNat + 1))
  | .hdrRel i d wc =>
    if hdrOff th i.toNat = 0xFF then 0
    else BitVec.ofNat 64 (winGet th (hdrOff th i.toNat + d.toNat) (relWidth wc))
  | .slip off w => BitVec.ofNat 64 (slipGet th.slip off.toNat (w.toNat + 1))
  | .lookup i hi => if hi then (lookVal th i).extractLsb' 64 64 else (lookVal th i).extractLsb' 0 64
  | .pred i => if predBit th i.val then 1 else 0
  | .table _ => 0
  | .disp _ => 0
  | .none => 0

/-- Write a 64-bit result to a destination operand, narrowed to its width (R109, R110). -/
def writeOp (th : Thread) (v : Word64) : Operand → Thread
  | .reg n => { th with g := th.g.set n v }
  | .hdrAbs off w => winPut th off.toNat (beBytes (w.toNat + 1) v.toNat)
  | .hdrRel i d wc =>
    if hdrOff th i.toNat = 0xFF then th
    else winPut th (hdrOff th i.toNat + d.toNat) (beBytes (relWidth wc) v.toNat)
  | .slip off w => { th with slip := slipWriteN th.egress th.slip off.toNat (leBytes (w.toNat + 1) v.toNat) }
  | .pred i => { th with t := setBits th.t i.val i.val v.toNat }
  | _ => th

/-- The register k places into the sequence at Gn, wrapping after G31 (R111). -/
def seqReg (th : Thread) (n : Fin 32) (k : Nat) : Word64 := th.g[Fin.ofNat 32 (n.val + k)]

/-- The sequence of m registers at Gn as one number, most significant register first (R111). -/
def seqNat (th : Thread) (n : Fin 32) (m : Nat) : Nat :=
  (List.range m).foldl (fun acc k => acc * 2 ^ 64 + (seqReg th n k).toNat) 0

/-- Byte k of the sequence at Gn in the order of R64 (R115). -/
def seqByte (th : Thread) (n : Fin 32) (k : Nat) : Byte := (seqReg th n (k / 8)).extractLsb' (8 * (7 - k % 8)) 8

/-- The first m bytes of the sequence at Gn. -/
def seqBytes (th : Thread) (n : Fin 32) (m : Nat) : List Byte := (List.range m).map (seqByte th n)

/-- The low k bits of an operand taken as a key or as result data (R122, R125). -/
def keyOf (th : Thread) (b : Operand) (k : Nat) : Nat :=
  match b with
  | .reg n => seqNat th n ((k + 63) / 64) % 2 ^ k
  | o => (readOp th o).toNat % 2 ^ k

end Sys2Proof.Machine
end

