-- ==== Sys2Proof/Machine/Flags.lean ====
section
/-! DEFINITION. The flags and predicates of Dinum words (R105, R107, Table 4.4) and the arithmetic behind them. -/

namespace Sys2Proof.Machine

/-- The condition a PRED field selects (Table 4.2). -/
def predHolds (th : Thread) (p : BitVec 4) : Bool :=
  match p.toNat with
  | 0x0 => true
  | 0x1 => predBit th 0
  | 0x2 => !predBit th 0
  | 0x3 => predBit th 1
  | 0x4 => !predBit th 1
  | 0x5 => predBit th 2
  | 0x6 => !predBit th 2
  | 0x7 => predBit th 3
  | 0x8 => !predBit th 3
  | 0x9 => th.z
  | 0xA => !th.z
  | 0xB => th.c
  | 0xC => !th.c
  | 0xD => th.n != th.v
  | 0xE => th.n == th.v
  | _ => th.c && !th.z

/-- Z and N from the full 64-bit result (R107). -/
def Thread.setZN (th : Thread) (r : Word64) : Thread := { th with z := decide (r = 0), n := r.msb }

/-- C and V. -/
def Thread.setCV (th : Thread) (c v : Bool) : Thread := { th with c := c, v := v }

/-- C of an addition: the carry out of bit 63. -/
def addCarry (b c : Word64) : Bool := decide (2 ^ 64 ≤ b.toNat + c.toNat)

/-- V of an addition: the signed sum does not fit. -/
def addOverflow (b c : Word64) : Bool := decide ((b + c).toInt ≠ b.toInt + c.toInt)

/-- C of a subtraction: no borrow (Table 4.4). -/
def subCarry (b c : Word64) : Bool := decide (c.toNat ≤ b.toNat)

/-- V of a subtraction: the signed difference does not fit. -/
def subOverflow (b c : Word64) : Bool := decide ((b - c).toInt ≠ b.toInt - c.toInt)

/-- Rotate right. -/
def rotR (b : Word64) (n : Nat) : Word64 := (b >>> (n % 64)) ||| (b <<< ((64 - n % 64) % 64))

/-- The number of 1 bits. -/
def popCount (b : Word64) : Nat := (List.range 64).foldl (fun n k => n + b2n (bit b k)) 0

/-- The number of leading zero bits; 64 for 0. -/
def leadingZeros (b : Word64) : Nat := if b = 0 then 64 else 63 - Nat.log2 b.toNat

/-- Fold a number into 16 bits with end-around carry (R116). A sum of k words needs at most k folds. -/
def fold16 : Nat → Nat → Nat
  | 0, x => x
  | k + 1, x => if x < 0x10000 then x else fold16 k (x % 0x10000 + x / 0x10000)

/-- The sum of the big-endian 16-bit words of bytes; an odd final byte is a high byte (R116). -/
def sumWords : List Byte → Nat
  | [] => 0
  | [a] => a.toNat * 256
  | a :: b :: bs => a.toNat * 256 + b.toNat + sumWords bs

/-- Ones' complement 16-bit sum of a start value and bytes (R116). -/
def onesSum (start : Nat) (bs : List Byte) : Nat := let x := start % 0x10000 + sumWords bs; fold16 64 x

/-- CSUMI: not(not A + not B + C) in 16-bit ones' complement arithmetic (R116). -/
def csumUpdate (a b c : Nat) : Nat :=
  0xFFFF - fold16 64 ((0xFFFF - a % 0x10000) + (0xFFFF - b % 0x10000) + c % 0x10000)

/-- One byte of a reflected CRC-32 with the reflected polynomial poly. -/
def crcByte (poly : Word32) (crc : Word32) (b : Byte) : Word32 :=
  (List.range 8).foldl (fun c _ => if bit c 0 then (c >>> 1) ^^^ poly else c >>> 1) (crc ^^^ b.zeroExtend 32)

/-- A reflected CRC-32 with initial value and final exclusive OR 0xFFFF_FFFF (R93, R115). -/
def crc32 (poly : Word32) (bs : List Byte) : Word32 := ~~~(bs.foldl (crcByte poly) 0xFFFFFFFF)

/-- The reflection of 0x04C1_1DB7, the CRC-32 of IEEE 802.3 (R93). -/
def polyEth : Word32 := 0xEDB88320

/-- The reflection of 0x1EDC_6F41, CRC-32C (R115). -/
def polyC : Word32 := 0x82F63B78

/-- Toeplitz: the exclusive OR, over every input bit set, of the 32 key bits from that bit's place (R115). -/
def toeplitz (key : BitVec 320) (input : List Byte) : Word32 :=
  (List.range (8 * input.length)).foldl
    (fun acc i => if bit (input.getD (i / 8) 0) (7 - i % 8) then acc ^^^ key.extractLsb' (288 - i) 32 else acc) 0

end Sys2Proof.Machine
end

