-- ==== Sys2Proof/Machine/Memory.lean ====
section
/-! DEFINITION. Device memory as the data plane sees it: ranges of bytes, the on-die buffer (R189), the regions and stripes
of the Stacks, the two copies of a FREE_RING region and the spare stripes (R204, R205, R209). -/

namespace Sys2Proof.Machine

/-! ### Ranges of bytes -/

/-- The cells of a byte string at rising addresses; a byte that an unlisted address reads as has none. -/
def listCells : Nat → List Byte → List Host.Cell
  | _, [] => []
  | a, b :: bs => if b = memDefault then listCells (a + 1) bs else (a, b) :: listCells (a + 1) bs

/-- Write bytes at rising addresses, in one pass. -/
def memPut (m : List Host.Cell) (a : Nat) (bs : List Byte) : List Host.Cell :=
  m.filter (fun c => decide (c.1 < a)) ++ listCells a bs ++ m.filter (fun c => decide (a + bs.length ≤ c.1))

/-- n bytes at rising addresses, from one pass over memory. -/
def memGet (m : List Host.Cell) (a n : Nat) : List Byte :=
  let seg := m.filter (fun c => decide (a ≤ c.1) && decide (c.1 < a + n))
  (List.range n).map (fun i => SMap.find memDefault seg (a + i))

/-! ### The on-die buffer (R189) -/

/-- Device address of ODB byte 0 (R25, R189). -/
def odbBase : Nat := 0xB00000000000

/-- The ODB, in cells, and the first cell of its ring area. -/
def odbCells : Nat := 1310720
def ringArea : Nat := 1290240

/-- Device address of the ODB cell with a buffer number: a buffer number is a byte offset divided by 64. -/
def odbAddr (num : Nat) : Nat := odbBase + 64 * num

/-! ### Memory ports -/

/-- The memory port of a Stacks page, by its buffer number: stripes of 16 KiB over 24 ports (R204). -/
def pagePort (n : Nat) : Nat := n / 256 % 24

/-- The state of a memory port (GD_STATUS.STATE). -/
def State.gdState (s : State) (g : Nat) : Nat := bits (s.reg (Reg.gdStatus g)) 2 0

/-- A memory port is mapped: SERVING or RETRAINING after a pass. -/
def State.gdMapped (s : State) (g : Nat) : Bool := s.gdState g == 2 || s.gdState g == 3

/-! ### Regions and stripes (R204, R209) -/

/-- Bytes of a stripe. -/
def stripeBytes : Nat := 16384

/-- Bytes of a unit of the region plan: 384 KiB (R204). -/
def regionUnit : Nat := 393216

/-- The kind and the size in units of a region. -/
def State.regionKind (s : State) (r : Nat) : Nat := s.cfgF (Reg.circRegionA r) 31 29
def State.regionSize (s : State) (r : Nat) : Nat := s.cfgF (Reg.circRegionB r) 18 0
def State.regionFirst (s : State) (r : Nat) : Nat := s.cfgF (Reg.circRegionA r) 17 0

/-- The FREE_RING region that a Stacks address lies in. -/
def State.ringRegionAt (s : State) (a : Nat) : Option Nat :=
  (List.range 32).find? (fun r => decide (s.regionKind r = 2) && decide (s.regionFirst r * regionUnit ≤ a) &&
    decide (a < (s.regionFirst r + s.regionSize r) * regionUnit))

/-- Where the contents of a Stacks address are kept: of the two copies of a FREE_RING stripe, in the first (R204). -/
def State.stkHome (s : State) (a : Nat) : Nat :=
  match s.ringRegionAt a with
  | none => a
  | some r =>
    let o := a - s.regionFirst r * regionUnit
    s.regionFirst r * regionUnit + o / (2 * stripeBytes) * (2 * stripeBytes) + o % stripeBytes

/-- The port on which a stripe's contents lie: its own, or that of its spare. -/
def State.stripePort (s : State) (t : Nat) : Nat :=
  let v := SMap.find 0 s.gddr.remap t
  if v = 0 then t % 24 else (v - 1) % 24

/-- A stripe can be reached: it, or its spare, is on a mapped port; of a FREE_RING stripe either copy serves (Table 7.7). -/
def State.stripeOk (s : State) (t : Nat) : Bool :=
  match s.ringRegionAt (t * stripeBytes) with
  | none => s.gdMapped (s.stripePort t)
  | some r =>
    let o := t - s.regionFirst r * 24
    s.gdMapped ((s.regionFirst r * 24 + o / 2 * 2) % 24) || s.gdMapped ((s.regionFirst r * 24 + o / 2 * 2 + 1) % 24)

/-- Every stripe that a range of Stacks addresses touches can be reached. -/
def State.stacksOk (s : State) (a n : Nat) : Bool :=
  (List.range ((a % stripeBytes + n + stripeBytes - 1) / stripeBytes)).all (fun i => s.stripeOk (a / stripeBytes + i))

/-- A range of Stacks addresses touches a FREE_RING region. -/
def State.touchesRing (s : State) (a n : Nat) : Bool :=
  (List.range 32).any (fun r => decide (s.regionKind r = 2) && decide (s.regionFirst r * regionUnit < a + n) &&
    decide (a < (s.regionFirst r + s.regionSize r) * regionUnit))

/-- n bytes of the Stacks. -/
def State.stkGet (s : State) (a n : Nat) : List Byte :=
  if s.touchesRing a n then (List.range n).map (fun i => memRead s.mem (s.stkHome (a + i))) else memGet s.mem a n

/-- Write one byte of the Stacks. -/
def State.stkByte (s : State) (x : Nat × Byte) : State := { s with mem := memWrite s.mem (s.stkHome x.1) x.2 }

/-- Write bytes of the Stacks; both copies of a FREE_RING stripe take them. -/
def State.stkPut (s : State) (a : Nat) (bs : List Byte) : State :=
  if s.touchesRing a bs.length then ((List.range bs.length).map (fun i => (a + i, bs.getD i 0))).foldl State.stkByte s
  else { s with mem := memPut s.mem a bs }

end Sys2Proof.Machine
end

