-- ==== Sys2Proof/Machine/Circulation.lean ====
section
/-! DEFINITION. Circulation: pools, caches, requests, frees and their checks (chapter 7, section 2). -/

namespace Sys2Proof.Machine

/-! ### Pools -/

/-- A pool's store. -/
def State.pool (s : State) (p : Nat) : Pool := SMap.find Pool.reset s.pools p

/-- COUNT of a pool; 0 means absent (R192). -/
def State.poolCount (s : State) (p : Nat) : Nat := (s.cfg (Reg.circPoolCount p)).toNat

/-- KIND of a pool: 0 CELL, 1 SCRATCH, 2 PAGE2K, 3 PAGE16K (Table 7.1). -/
def State.poolKind (s : State) (p : Nat) : Nat := s.cfgF (Reg.circPoolCfg p) 1 0

/-- RA mode (R202); otherwise SB mode (R201). -/
def State.poolRa (s : State) (p : Nat) : Bool := s.cfgB (Reg.circPoolCfg p) 8

/-- The fallback pool, where one is in use. -/
def State.poolFallback (s : State) (p : Nat) : Option Nat :=
  if s.cfgB (Reg.circPoolCfg p) 20 then some (s.cfgF (Reg.circPoolCfg p) 19 16) else none

/-- Buffer size divided by 64 (Table 7.1, R189). -/
def kindStep (kind : Nat) : Nat := if kind = 2 then 32 else if kind = 3 then 256 else 4

/-- First unit of a Stacks region, as a buffer number: 384 KiB are 6,144 buffer numbers. -/
def State.regionBase (s : State) (r : Nat) : Nat := s.cfgF (Reg.circRegionA r) 17 0 * 6144

/-- The first buffer number of a pool (Table 7.1). -/
def State.poolFirst (s : State) (p : Nat) : Nat :=
  if s.poolKind p < 2 then 4 * s.cfgF (Reg.circPoolBase p) 20 0 else s.regionBase (s.cfgF (Reg.circPoolBase p) 26 22)

/-- The i-th buffer number of a pool, ascending (R195). -/
def State.poolBuf (s : State) (p i : Nat) : Nat := s.poolFirst p + kindStep (s.poolKind p) * i

/-- A buffer number lies in the pool and is a multiple of buffer size / 64 from its first (R201). -/
def State.inPool (s : State) (p n : Nat) : Bool :=
  let st := kindStep (s.poolKind p)
  decide (s.poolFirst p ≤ n) && decide ((n - s.poolFirst p) % st = 0) && decide ((n - s.poolFirst p) / st < s.poolCount p)

/-- The cache of a quadrant. -/
def Pool.cache (p : Pool) (quad : Nat) : List Nat := SMap.find [] p.caches quad

/-- Replace the cache of a quadrant. -/
def Pool.setCache (p : Pool) (quad : Nat) (l : List Nat) : Pool := { p with caches := SMap.set [] p.caches quad l }

/-- Free buffers of a pool of n: the ring, the unissued sequence and the four caches together (R196). -/
def Pool.freeOf (x : Pool) (n : Nat) : Nat := x.count + (n - x.next) + ((List.range 4).map (fun q => (x.cache q).length)).sum

/-- CIRC_POOL_FREE. -/
def State.poolFree (s : State) (p : Nat) : Nat := (s.pool p).freeOf (s.poolCount p)

/-- A pool of n buffers with the extremes of its use kept. -/
def Pool.note (x : Pool) (n : Nat) : Pool := { x with hi := max x.hi (n - x.freeOf n), lo := min x.lo (n - x.freeOf n) }

/-- Replace a pool's store. -/
def State.setPool (s : State) (p : Nat) (x : Pool) : State :=
  { s with pools := SMap.set Pool.reset s.pools p (x.note (s.poolCount p)) }

/-- The buffers of a pool that runs hold reserved: no counter records them (R77). -/
def State.reserved (s : State) (p : Nat) : Nat :=
  (s.threads.map (fun x => (x.2.taken.filter (fun b => decide (b.pool = p))).length)).sum

/-- CIRC_POOL_LOW follows the lowest FREE (Table 0.2); a reservation does not count (R77). -/
def State.noteLow (s : State) (p : Nat) : State :=
  let f := s.poolFree p + s.reserved p
  if f < (s.reg (Reg.circPoolLow p)).toNat then s.setReg (Reg.circPoolLow p) (BitVec.ofNat 32 f) else s

/-! ### Free rings and state words (R195, R201) -/

/-- The FREE_RING region of a page pool's ring. -/
def State.ringRegion (s : State) (p : Nat) : Nat := s.cfgF (Reg.circPoolRing p) 31 27

/-- Device address of the first byte of an ODB pool's ring: the rings stand in the ring area in pool order (R195). -/
def State.odbRing (s : State) (p : Nat) : Nat :=
  odbBase + 256 * ringArea +
    4 * (((List.range p).filter (fun i => decide (s.poolKind i < 2))).map (fun i => s.poolCount i)).sum

/-- Stacks address of byte x of the usable half of a FREE_RING region, in the first copy (R204). -/
def State.ringPhys (s : State) (r x : Nat) : Nat :=
  s.regionFirst r * regionUnit + x / stripeBytes * (2 * stripeBytes) + x % stripeBytes

/-- Device address of byte x of a pool's ring; the state words of a page pool stand directly after its ring. -/
def State.ringByte (s : State) (p x : Nat) : Nat :=
  if s.poolKind p < 2 then s.odbRing p + x
  else s.ringPhys (s.ringRegion p) (s.cfgF (Reg.circPoolRing p) 26 0 * 4096 + x)

/-- Device address of place j of a pool's ring, which has 4 bytes for each buffer. -/
def State.ringSlot (s : State) (p j : Nat) : Nat := s.ringByte p (4 * (j % max 1 (s.poolCount p)))

/-- Place j of a pool's ring can be reached: the ODB always, the Stacks through either copy of the stripe. -/
def State.ringUp (s : State) (p j : Nat) : Bool := decide (s.poolKind p < 2) || s.stacksOk (s.ringSlot p j) 4

/-- The buffer number in place j of a ring. With both copies of its stripe lost it is a FREE VALUE (log 13). -/
def State.ringEntry (s : State) (p j : Nat) : Nat :=
  if s.ringUp p j then leNat (memGet s.mem (s.ringSlot p j) 4) else (Config.freeWord s.free).toNat % 2 ^ 32

/-- The entries of a pool's ring, oldest first. -/
def State.ringOf (s : State) (p : Nat) : List Nat :=
  (List.range (s.pool p).count).map (fun i => s.ringEntry p ((s.pool p).head + i))

/-- A buffer number joins the end of a ring. -/
def State.ringPush (s : State) (p n : Nat) : State :=
  let x := s.pool p
  let s1 := s.setPool p { x with count := x.count + 1 }
  if s.ringUp p (x.head + x.count) then { s1 with mem := memPut s.mem (s.ringSlot p (x.head + x.count)) (leBytes 4 n) } else s1

/-- The oldest entry of a ring leaves it. -/
def State.ringPop (s : State) (p : Nat) : State :=
  let x := s.pool p
  s.setPool p { x with head := (x.head + 1) % max 1 (s.poolCount p), count := x.count - 1 }

/-- Device address of the state word of a page-pool buffer (R201). -/
def State.wordAddr (s : State) (p n : Nat) : Nat :=
  s.ringByte p (4 * s.poolCount p + (n - s.poolFirst p) / kindStep (s.poolKind p))

/-- The state word of a buffer: bit [4] allocated, bits [3:0] the owner class (R201). Those of an ODB pool are in the hub,
those of a page pool in the Stacks. -/
def State.bufWord (s : State) (p n : Nat) : Byte :=
  if s.poolKind p < 2 then SMap.find 0 (s.pool p).words n
  else if s.inPool p n then memRead s.mem (s.wordAddr p n) else 0

/-- Set the state word of a buffer; a pool in RA mode keeps none (R202). -/
def State.setBufWord (s : State) (p n : Nat) (w : Byte) : State :=
  if s.poolRa p then s
  else if s.poolKind p < 2 then s.setPool p { s.pool p with words := SMap.set 0 (s.pool p).words n w }
  else if s.inPool p n && s.stacksOk (s.wordAddr p n) 1 then { s with mem := memWrite s.mem (s.wordAddr p n) w }
  else s

/-- A buffer becomes allocated to an owner class, and the allocation is counted (R201, Table 14.1). -/
def State.allocate (s : State) (b : Buf) (cls : Nat) : State :=
  (s.setBufWord b.pool b.num (BitVec.ofNat 8 (16 + cls))).addCtr (poolCtr b.pool 0) 1

/-- A buffer may be handed out: a page on an unmapped port may not (Table 7.7). -/
def State.bufUsable (s : State) (p n : Nat) : Bool := decide (s.poolKind p < 2) || s.gdMapped (pagePort n)

/-! ### Requests (R197, R198) -/

/-- What is asked for: packet cells, shelving pages, or a buffer of any kind. -/
inductive ReqKind where
  | cell | page | any
  deriving DecidableEq, Repr

/-- A pool serves a request of this kind (R192). -/
def reqServes (k : ReqKind) (kind : Nat) : Bool :=
  match k with
  | .cell => decide (kind = 0)
  | .page => decide (2 ≤ kind)
  | .any => true

/-- A pool counts a shortfall it passes on or ends at (R198). -/
def State.countShort (s : State) (p : Nat) (dry : Bool) : State :=
  let s1 := (s.bump (Reg.circPoolCnt p 0) 1).addCtr (poolCtr p 2) 1
  if dry then ((s1.bump (Reg.circPoolCnt p 2) 1).addCtr (poolCtr p 3) 1).setEv Reg.circEvents 0 else s1

/-- Draw n buffers from a pool's cache in a quadrant, passing the shortfall along the fallback chain. The chain holds
at most 16 pools (R194). Answers the buffers taken; fewer than n means EMPTY. -/
def State.draw (s : State) (k : ReqKind) (quad : Nat) : Nat → Nat → Nat → State × List Buf
  | 0, _, _ => (s, [])
  | fuel + 1, p, n =>
    let x := s.pool p
    let open' := decide (s.poolCount p ≠ 0) && reqServes k (s.poolKind p)
    let have' := if open' then x.cache quad else []
    let got := have'.take n
    let s1 := if got = [] then s else s.setPool p (x.setCache quad (have'.drop n))
    let bs := got.map (fun b => (⟨p, b⟩ : Buf))
    if got.length = n then (s1, bs)
    else
      let dry := open' && (decide (x.count ≠ 0) || decide (x.next < s.poolCount p))
      let s2 := s1.countShort p dry
      match s2.poolFallback p with
      | none => (s2, bs)
      | some f =>
        let (s3, more) := (s2.bump (Reg.circPoolCnt f 1) 1).draw k quad fuel f (n - got.length)
        (s3, bs ++ more)

/-- The number of pools a fallback chain can visit. -/
def chainLen : Nat := 16

/-- A buffer goes back to the head of the cache it came from, unrecorded (R77). -/
def State.unreserve (s : State) (quad : Nat) (b : Buf) : State :=
  s.setPool b.pool ((s.pool b.pool).setCache quad (b.num :: (s.pool b.pool).cache quad))

/-- A request for n buffers of a class (R198): the buffers it took, all allocated; fewer than n means that it ended
EMPTY. -/
def State.request (s : State) (k : ReqKind) (p quad n cls : Nat) : State × List Buf :=
  if n = 0 then (s, [])
  else
    let (s1, bs) := s.draw k quad chainLen p n
    (bs.foldl (fun x b => (x.allocate b cls).noteLow b.pool) s1, bs)

/-- Packet cells in requests of at most m buffers, up to the first that ends EMPTY: at most fuel of them. -/
def State.takeCells (s : State) (p quad cls m : Nat) : Nat → Nat → State × List Buf
  | 0, _ => (s, [])
  | fuel + 1, n =>
    if n = 0 then (s, [])
    else
      let (s1, bs) := s.request .cell p quad (min m n) cls
      if bs.length < min m n then (s1, bs)
      else
        let (s2, more) := s1.takeCells p quad cls m fuel (n - min m n)
        (s2, bs ++ more)

/-! ### Frees (R199 to R203) -/

/-- The outcomes of a free, coded as CIRC_HOST_FREE_RESULT. -/
inductive FreeResult where
  | freed | doubleFree | foreignFree | badPointer | absent | overfree
  deriving DecidableEq, Repr

/-- The code of CIRC_HOST_FREE_RESULT. -/
def FreeResult.code : FreeResult → Nat
  | .freed => 1 | .doubleFree => 2 | .foreignFree => 3 | .badPointer => 4 | .absent => 5 | .overfree => 6

/-- What the checks of a pool's mode say of a free (R201, R202). -/
def State.judgeFree (s : State) (p n cls : Nat) : FreeResult :=
  if s.poolCount p = 0 then .absent
  else if s.inPool p n = false then .badPointer
  else if s.poolRa p then (if s.poolCount p < s.poolFree p + 1 then .overfree else .freed)
  else if bit (s.bufWord p n) 4 = false then .doubleFree
  else if bits (s.bufWord p n) 3 0 ≠ cls then .foreignFree
  else .freed

/-- The body of DOUBLE_FREE, FOREIGN_FREE and BAD_POINTER (Table 13.4). -/
def freeBody (p n cls : Nat) : List Byte := [BitVec.ofNat 8 p, BitVec.ofNat 8 cls, 0, 0] ++ beBytes 4 n

/-- A free with its outcome decided: an accepted buffer enters the ring (host) or the head of a cache; a refusal is
counted, sets its event and sends its notice (R199, R201, R202, R203, Table 7.7). A free of a buffer of an absent pool
names a buffer outside the pool. -/
def State.settleFree (s : State) (p n cls quad : Nat) (host : Bool) (r : FreeResult) : State :=
  match r with
  | .freed =>
    let s1 := (s.setBufWord p n 0).addCtr (poolCtr p 1) 1
    let x := s1.pool p
    if s1.bufUsable p n = false then s1
    else if host then s1.ringPush p n
    else s1.setPool p (x.setCache quad (n :: x.cache quad))
  | .doubleFree =>
    (((s.bump (Reg.circPoolCnt p 3) 1).addCtr (poolCtr p 4) 1).setEv Reg.circEvents 1).notice 0x0010 (freeBody p n cls)
  | .foreignFree =>
    (((s.bump (Reg.circPoolCnt p 4) 1).addCtr (poolCtr p 5) 1).setEv Reg.circEvents 2).notice 0x0011 (freeBody p n cls)
  | .badPointer | .absent =>
    (((s.bump (Reg.circPoolCnt p 5) 1).addCtr (poolCtr p 6) 1).setEv Reg.circEvents 3).notice 0x0012 (freeBody p n cls)
  | .overfree => ((s.bump (Reg.circPoolCnt p 7) 1).addCtr (poolCtr p 8) 1).setEv Reg.circEvents 4

/-- The state word of a page pool in SB mode lies in the Stacks and is read before the outcome is known (R201). -/
def State.wordInStacks (s : State) (p n : Nat) : Bool :=
  decide (2 ≤ s.poolKind p) && !s.poolRa p && s.inPool p n

/-- A free by the device or a program: checked at once, or after its state word has been read from the Stacks. -/
def State.free' (s : State) (p n cls quad : Nat) : State :=
  if s.wordInStacks p n then { s with freeChk := s.freeChk ++ [⟨p, n, cls, quad, false⟩] }
  else s.settleFree p n cls quad false (s.judgeFree p n cls)

/-- The device frees a packet's buffer with the class its state word records (R201). -/
def State.freeOwn (s : State) (quad : Nat) (b : Buf) : State :=
  s.settleFree b.pool b.num (bits (s.bufWord b.pool b.num) 3 0) quad false
    (s.judgeFree b.pool b.num (bits (s.bufWord b.pool b.num) 3 0))

/-- One copy or job less needs the cells of a replicated original; with none left they are freed (R247). -/
def State.unshare (s : State) (o : Nat) : State :=
  match s.tm.shared.find? (fun x => x.1 == o) with
  | none => s
  | some (_, h) =>
    if h.refs ≤ 1 then
      h.bufs.foldl (fun x b => x.freeOwn (h.slice / 2) b) { s with tm := { s.tm with shared := s.tm.shared.drop o } }
    else { s with tm := { s.tm with shared := (s.tm.shared.drop o).insert o { h with refs := h.refs - 1 } } }

/-- n packet cells for a packet (R190, R191), in requests of at most m; none where a cell cannot be had, and the cells
already taken are freed. -/
def State.cellsFor (s : State) (p quad cls m n : Nat) : State × Option (List Buf) :=
  let (s1, bs) := s.takeCells p quad cls m n n
  if bs.length = n then (s1, some bs) else (bs.foldl (fun x b => x.freeOwn quad b) s1, none)

/-- Free every buffer of a packet or copy (R191, R199), and its share in its original's cells. -/
def State.freePkt (s : State) (quad : Nat) (p : Pkt) : State :=
  let s1 := p.bufs.foldl (fun x b => x.freeOwn quad b) s
  match p.orig with
  | none => s1
  | some o => s1.unshare o

/-- Drop a packet or copy: it is counted once under its reason at its site, and its buffers are released (R149, R360). -/
def State.dropPkt (s : State) (p : Pkt) (site code quad : Nat) : State := (s.freePkt quad p).countDrop site code

/-- Drop a packet held by a slice. -/
def State.dropIn (s : State) (p : Pkt) (slice code : Nat) : State := s.dropPkt p slice code (slice / 2)

/-- Drop a packet or copy held at the hub: its buffers go to the quadrant of the slice that first handled it (R199). -/
def State.dropHub (s : State) (p : Pkt) (code : Nat) : State := s.dropPkt p hubSite code (p.slice / 2)

/-! ### Refills and spills (R196) -/

/-- The next buffer of a refill: the oldest ring entry, else the next unissued buffer (R195). -/
def State.takeFree (s : State) (p : Nat) : Option (Nat × State) :=
  let x := s.pool p
  if x.count ≠ 0 then some (s.ringEntry p x.head, (s.ringPop p).nextFree)
  else if x.next < s.poolCount p then some (s.poolBuf p x.next, s.setPool p { x with next := x.next + 1 })
  else none

/-- A burst of up to n buffers, first taken first. A page on an unmapped port is withdrawn and counted LOST. -/
def State.burst (s : State) (p : Nat) : Nat → State × List Nat
  | 0 => (s, [])
  | k + 1 =>
    match s.takeFree p with
    | none => (s, [])
    | some (n, s1) =>
      if s1.bufUsable p n then
        let (s2, l) := s1.burst p k
        (s2, n :: l)
      else ((s1.bump (Reg.circPoolCnt p 6) 1).addCtr (poolCtr p 7) 1).burst p k

/-- At a tick, every cache of a present pool that holds fewer than 512 entries and has no burst outstanding asks for
one (R196). -/
def State.askRefills (s : State) : State :=
  (List.range 16).foldl (fun x p =>
    if x.poolCount p = 0 then x
    else
      let pl := x.pool p
      let want := (List.range 4).filter (fun q => decide ((pl.cache q).length < 512) && !pl.bursts.contains q)
      if want = [] then x else x.setPool p { pl with bursts := pl.bursts ++ want }) s

/-- A byte of device memory that holds a state word of pool p, a page pool in SB mode (R201). -/
def State.holdsWord (s : State) (p a : Nat) : Bool :=
  let r := s.ringRegion p
  let o := a - s.regionFirst r * regionUnit
  let x := o / (2 * stripeBytes) * stripeBytes + o % stripeBytes
  let w := s.cfgF (Reg.circPoolRing p) 26 0 * 4096 + 4 * s.poolCount p
  decide (2 ≤ s.poolKind p) && !s.poolRa p && decide (s.regionFirst r * regionUnit ≤ a) &&
  decide (o % (2 * stripeBytes) < stripeBytes) && decide (w ≤ x) && decide (x < w + s.poolCount p)

/-- Every pool as ENABLE leaves it: rings and caches empty, all buffers unissued and none allocated (R195). A free that
still waits for its state word finds the buffer free. -/
def State.renewPools (s : State) : State :=
  { s with pools := [], mem := s.mem.filter (fun c => !(List.range 16).any (fun p => s.holdsWord p c.1)) }

/-- CACHE_REFILL_ARRIVE (R196): the burst enters the cache, its first buffer to be served first. -/
def execCacheRefillArrive (pool : Fin 16) (quad : Fin 4) (s : State) : Res :=
  let x := s.pool pool.val
  if x.bursts.contains quad.val = false then .next s
  else
    let (s1, l) := (s.setPool pool.val { x with bursts := x.bursts.erase quad.val }).burst pool.val 64
    let y := s1.pool pool.val
    .next (s1.setPool pool.val (y.setCache quad.val (l ++ y.cache quad.val)))

/-- CACHE_SPILL (R196): a cache over 3,584 entries, or one rebalancing, spills 64 to the ring. Which entries leave the
cache is a FREE VALUE (log 13). -/
def execCacheSpill (pool : Fin 16) (quad : Fin 4) (s : State) : Res :=
  let x := s.pool pool.val
  let c := x.cache quad.val
  let dry := decide (x.count = 0) && decide (s.poolCount pool.val ≤ x.next)
  let other := (List.range 4).any (fun q => decide (q ≠ quad.val) && decide (x.cache q = []))
  if 3584 < c.length ∨ (dry = true ∧ 64 < c.length ∧ other = true) then
    let o := (Config.freeWord s.free).toNat % (c.length - 63)
    let gone := (c.drop o).take 64
    let s1 := s.setPool pool.val (x.setCache quad.val (c.take o ++ c.drop (o + 64)))
    .next (gone.reverse.foldl (fun y n => y.ringPush pool.val n) s1).nextFree
  else .next s

/-- The owner class a request records (Table 7.3). -/
def requesterClass : Requester → Nat
  | .ingress => 0 | .page => 6 | .added c => c.val | .replication => 1 | .mirror => 5 | .recall => 2 | .scratch => 3
  | .host => 4

/-- What a requester asks for (R192). -/
def requesterKind : Requester → ReqKind
  | .scratch => .any
  | .page => .page
  | _ => .cell

/-- BUFFER_REQUEST (R197, R198): a requester draws 1 to 16 buffers (scratch up to 512) from a pool's cache. Where packet
cells end EMPTY their packet is dropped, and what was taken for it is freed again. -/
def execBufferRequest (who : Requester) (pool : Fin 16) (quad : Fin 4) (n : Nat) (s : State) : Res :=
  let top := if who = .scratch then 512 else 16
  if n = 0 ∨ top < n then .next s
  else
    let r := s.request (requesterKind who) pool.val quad.val n (requesterClass who)
    if requesterKind who = .cell ∧ r.2.length < n then .next (r.2.foldl (fun x b => x.freeOwn quad.val b) r.1)
    else .next r.1

/-- BUFFER_FREE (R199 to R202). -/
def execBufferFree (pool : Fin 16) (quad : Fin 4) (num : Word32) (cls : BitVec 4) (s : State) : Res :=
  .next (s.free' pool.val num.toNat cls.toNat quad.val)

/-- The outcome of a host free is known: GO clears and RESULT is set (R203). -/
def State.hostFreeDone (s : State) (r : FreeResult) : State :=
  (s.clrBit Reg.circHostFreeCmd 31).setReg Reg.circHostFreeResult (BitVec.ofNat 32 r.code)

/-- CIRC_HOST_FREE (R203): a write of CIRC_HOST_FREE_CMD with GO = 1 frees CIRC_HOST_FREE_NUM under the pool's checks.
A write of GO while GO reads 1 is ignored. -/
def State.hostFree (s : State) (v : Word32) : State :=
  if bit (s.reg Reg.circHostFreeCmd) 31 then s
  else
    let v' := v &&& 0x80000F0F
    let s1 := s.setReg Reg.circHostFreeCmd v'
    if bit v 31 = false then s1
    else
      let p := bits v 3 0
      let cls := bits v 11 8
      let n := (s.reg Reg.circHostFreeNum).toNat
      if s1.poolCount p = 0 then s1.hostFreeDone .absent
      else if s1.wordInStacks p n then { s1 with freeChk := s1.freeChk ++ [⟨p, n, cls, 0, true⟩] }
      else
        let r := s1.judgeFree p n cls
        (s1.settleFree p n cls 0 true r).hostFreeDone r

/-- CIRC_HOST_FREE (R203). -/
def execCircHostFree (v : Word32) (s : State) : Res := .next (s.hostFree v)

/-- STATE_WORD_CHECK_DONE (R201): the state word of the oldest waiting free has been read. -/
def execStateWordCheckDone (s : State) : Res :=
  match s.freeChk with
  | [] => .next s
  | f :: rest =>
    let s1 := { s with freeChk := rest }
    let r := s1.judgeFree f.pool f.num f.cls
    let s2 := s1.settleFree f.pool f.num f.cls f.quad f.host r
    .next (if f.host then s2.hostFreeDone r else s2)

end Sys2Proof.Machine
end

