-- ==== Sys2Proof/Machine/Stacks.lean ====
section
/-! DEFINITION. The Stacks: stripes and lost ports, posted writes, shelve and recall (chapter 7, sections 3 and 4). -/

namespace Sys2Proof.Machine

/-! ### Stripes (R204, R205, R209) -/

/-- The state word of a memory port changed. -/
def State.setGd (s : State) (g st : Nat) : State := s.setRegF (Reg.gdStatus g) 2 0 st

/-- A discarded posted write is counted (R79, R208, R209). -/
def State.postDrop (s : State) (quad : Nat) : State := s.bump (Reg.stkPostDrop quad) 1

/-- The stripes of the regions of a kind, or of the REMAP regions. -/
def State.regionStripes (s : State) (ok : Nat → Bool) : List Nat :=
  (List.range 32).flatMap (fun r =>
    if ok r && decide (s.cfgF (Reg.circRegionB r) 18 0 ≠ 0) then
      (List.range (24 * s.cfgF (Reg.circRegionB r) 18 0)).map (fun i => 24 * s.cfgF (Reg.circRegionA r) 17 0 + i)
    else [])

/-- A stripe filled with zero. -/
def State.zeroStripe (s : State) (t : Nat) : State :=
  { s with mem := s.mem.filter (fun c => !(decide (t * stripeBytes ≤ c.1) && decide (c.1 < (t + 1) * stripeBytes))) }

/-- Assign the next free spare stripe on a mapped port to a stripe of a REMAP region (Table 7.7). With none left,
SPARE_SHORT is set and the stripe stays unmapped. -/
def State.remapStripe (s : State) (m : Nat) (spares : List Nat) (t : Nat) : State :=
  match spares.find? (fun x => s.gdMapped (x % 24) && !(s.gddr.remap.any (fun y => y.2 == x + 1))) with
  | some x =>
    { s with gddr := { s.gddr with remap := SMap.set 0 s.gddr.remap t (x + 1) } }.zeroStripe t
  | none =>
    { s with gddr := { s.gddr with remap := SMap.set 0 s.gddr.remap t 0 } }.setEv (Reg.stkEvents (m / 6)) 1

/-- Rewrite the remap table after the loss of a port: every REMAP-region stripe on it, in stripe order. -/
def State.remapPort (s : State) (m : Nat) : State :=
  let mine := (s.regionStripes (fun r => s.cfgB (Reg.circRegionA r) 28)).filter (fun t => s.stripePort t == m)
  let spares := s.regionStripes (fun r => s.cfgF (Reg.circRegionA r) 31 29 == 5)
  let other := (s.regionStripes (fun r => !s.cfgB (Reg.circRegionA r) 28 && decide (s.cfgF (Reg.circRegionA r) 31 29 ≠ 0)
    && decide (s.cfgF (Reg.circRegionA r) 31 29 ≠ 1) && decide (s.cfgF (Reg.circRegionA r) 31 29 ≠ 2)
    && decide (s.cfgF (Reg.circRegionA r) 31 29 ≠ 5))).any (fun t => t % 24 == m)
  let s1 := mine.foldl (fun x t => x.remapStripe m spares t) s
  if other then s1.setEv (Reg.stkEvents (m / 6)) 1 else s1

/-- Ports unmapped before the regions took these settings get their spare stripes with them (R205): the remap table is
written anew, for each such port in order. DESIGN CHOICE (log 77): the manual does not say when. -/
def State.remapAll (s : State) : State :=
  ((List.range 24).filter (fun m => decide (s.gdState m = 4) && !s.gddr.remapping.contains m)).foldl
    (fun x m => x.remapPort m) { s with gddr := { s.gddr with remap := [] } }

/-- The region settings that take effect at this boundary differ from those before it. -/
def State.regionsChange (old s : State) : Bool :=
  (List.range 32).any (fun r => decide (old.cfg (Reg.circRegionA r) ≠ s.cfg (Reg.circRegionA r)) ||
    decide (old.cfg (Reg.circRegionB r) ≠ s.cfg (Reg.circRegionB r)))

/-- At a boundary the remap table follows the region settings. -/
def State.regionsTick (old s : State) : State := if State.regionsChange old s then s.remapAll else s

/-- The transfers outstanding toward a port fail: posted writes are discarded and counted, pages in recall are lost (R208). -/
def State.failTransfers (s : State) (m : Nat) : State :=
  let mine := s.gddr.posts.filter (fun w => s.stripePort (w.addr / stripeBytes) == m)
  let s1 : State := { s with
    gddr := { s.gddr with posts := s.gddr.posts.filter (fun w => !(s.stripePort (w.addr / stripeBytes) == m)) }
    tm := { s.tm with queues := s.tm.queues.map (fun x => (x.1, { x.2 with
      pages := x.2.pages.map (fun p => if p.recalling && pagePort p.buf.num == m then { p with lost := true } else p) })) } }
  mine.foldl (fun x w => x.postDrop w.quad) s1

/-- A memory port is lost (R209): it is UNMAPPED, its outstanding transfers fail, shelving and recall pause, and Vigil
records it. -/
def State.losePort (s : State) (m : Nat) : State :=
  if s.gdState m = 4 then s
  else
    let s1 := s.failTransfers m
    ({ s1 with gddr := { s1.gddr with
        paused := true
        remapping := s1.gddr.remapping ++ [m]
        marking := s1.gddr.marking ++ [m] } }.setGd m 4).vigil' 0x0020 m

/-! ### Posted writes (R79, R126) -/

/-- A posted write enters the write queue toward the Stacks. Whether that queue is full is a FREE VALUE: its length is not
stated (log 25). -/
def State.postIn (s : State) (w : PostW) : State :=
  if bit (Config.freeWord s.free) 0 then (s.postDrop w.quad).nextFree
  else { s with gddr := { s.gddr with posts := s.gddr.posts ++ [w] } }.nextFree

/-- A posted write reaches the Stacks, or finds its stripe unmapped (Table 7.7). -/
def State.postDone (s : State) (w : PostW) : State :=
  if s.stacksOk w.addr w.data.length = false then s.postDrop w.quad
  else if w.add then s.stkPut w.addr (leBytes 8 (leNat (s.stkGet w.addr 8) + leNat w.data))
  else s.stkPut w.addr w.data

/-- At a boundary the posted writes on their way reach the Stacks, in order. -/
def State.drainPosts (s : State) : State :=
  s.gddr.posts.foldl State.postDone { s with gddr := { s.gddr with posts := [] } }

/-! ### Cells of a queue -/

/-- Cells of a packet of n bytes without its FCS (R190). -/
def cellsOf (n : Nat) : Nat := (n + 4 + 255) / 256

/-- Cells of a packet; of a frame whose end is still to come, those of the bytes that have come. -/
def Pkt.cells (p : Pkt) : Nat := if p.ended then cellsOf p.data.length else (p.data.length + 255) / 256

/-! ### Frames in the ODB (R189, R190, R202) -/

/-- The bytes of a frame as its cells hold them: the frame and its FCS; of a frame whose end is still to come, what has
come. DESIGN CHOICE (log 13): byte i of them stands at byte i % 256 of cell i / 256. -/
def Pkt.cellBytes (p : Pkt) : List Byte := if p.ended then p.data ++ leBytes 4 (crc32 polyEth p.data).toNat else p.data

/-- The data bytes of a cell are written. A buffer of a page pool is no cell. -/
def State.odbPut (s : State) (b : Buf) (bs : List Byte) : State :=
  if s.poolKind b.pool < 2 then { s with mem := memPut s.mem (odbAddr b.num) bs } else s

/-- The data bytes of a cell. -/
def State.odbGet (s : State) (b : Buf) : List Byte := memGet s.mem (odbAddr b.num) 256

/-- The cells that a packet holds by itself and writes: all of them, but only the first of a copy that shares the others
with its original (R245). -/
def Pkt.ownCells (p : Pkt) : List Buf := if p.orig.isSome then p.bufs.take 1 else p.bufs

/-- Bytes are written to cells, 256 to each. -/
def State.storeCells (s : State) (l : List Buf) (bs : List Byte) : State :=
  ((List.range l.length).zip l).foldl (fun x e => x.odbPut e.2 ((bs.drop (256 * e.1)).take 256)) s

/-- The frame of a packet is written to its cells. -/
def State.storePkt (s : State) (p : Pkt) : State := s.storeCells p.ownCells p.cellBytes

/-- A packet as its cells hold it: its first k bytes stand elsewhere, and past them the bytes of the cells that it holds by
itself are read back. What another packet wrote to a cell of it is read with them (R202). -/
def State.loadPkt (s : State) (k : Nat) (p : Pkt) : Pkt :=
  let got := (p.ownCells.flatMap s.odbGet).take p.data.length
  { p with data := p.data.take k ++ got.drop k ++ p.data.drop (max k got.length) }

/-- Slice of a queue (R230). -/
def queueSlice (q : Nat) : Nat := q / 32768

/-- Word w of a queue's entry (Table 8.9). -/
def State.queueWord (s : State) (q w : Nat) : Word32 := s.cfg (Reg.tmQueue (queueSlice q) (q % 32768) w)

/-- Parent of a scheduling node of one level: class sets, subscribers, groups. -/
def State.nodeParent (s : State) (slice base n : Nat) : Nat := s.cfgF (Reg.tmNode slice base n 0) 12 0

/-- The local port at the top of a queue's chain (R230). -/
def State.queueLocal (s : State) (q : Nat) : Nat :=
  let sl := queueSlice q
  let cs := bits (s.queueWord q 0) 12 0
  let sub := s.nodeParent sl 0x40000 cs
  let grp := s.nodeParent sl 0x60000 sub
  s.nodeParent sl 0x70000 grp % 64

/-- The port a queue belongs to. -/
def State.queuePort (s : State) (q : Nat) : Nat := 64 * queueSlice q + s.queueLocal q

/-- Shelve profile of a queue, first word. -/
def State.shelveA (s : State) (q : Nat) : Word32 := s.cfg (Reg.circShelveA (bits (s.queueWord q 1) 31 28))

/-- Shelve profile of a queue, second word. -/
def State.shelveB (s : State) (q : Nat) : Word32 := s.cfg (Reg.circShelveB (bits (s.queueWord q 1) 31 28))

/-- Overlap of the cell ranges [a, b) and [c, d). -/
def overlap (a b c d : Nat) : Nat := min b d - max a c

/-- Each packet of a queue with the place of its first cell. -/
def placed (ps : List Pkt) : List (Nat × Pkt) :=
  (ps.foldl (fun (acc : Nat × List (Nat × Pkt)) p => (acc.1 + p.cells, acc.2 ++ [(acc.1, p)])) (0, [])).2

/-- RECALL_LEAD of a queue's port (R211). -/
def State.recallLead (s : State) (q : Nat) : Nat := s.cfgF (Reg.circRecall (s.queuePort q)) 11 0

/-- Mark the next pages of the shelved segment as being read: at most four of a queue at once (R211). -/
def markRecall (l : List Page) : List Page :=
  (l.take 4).map (fun p => { p with recalling := true }) ++ l.drop 4

/-- Recall keeps the head at RECALL_LEAD cells, and at those of its first packet, which it must hold before it is dequeued (R148),
and starts reads of pages while it holds fewer. With no page in the shelved segment the tail joins the head: when the last page
has come back (emptied), or when the head holds fewer cells than that or none (R211; DEDUCED, log 78). -/
def State.settleQueue (s : State) (q : Nat) (emptied : Bool) : State :=
  let x := s.queue q
  let low := decide (x.head < max (s.recallLead q) ((x.pkts.head?).elim 0 Pkt.cells))
  if x.shelv = false then s
  else if x.pages = [] then
    if emptied || low || decide (x.head = 0) then
      s.setQueue q { x with head := x.head + x.tail, tail := 0, shelv := false, retry := false }
    else s
  else if low && !s.gddr.paused then s.setQueue q { x with pages := markRecall x.pages }
  else s

/-- The bytes of n cells of a packet from its cell i on, the k cells before them in the head being its first buffers: from
its own cells, or of a copy from the frame it shares. -/
def State.cellsOut (s : State) (p : Pkt) (i k n : Nat) : List Byte :=
  if p.orig.isSome then slice0 p.cellBytes (256 * i) (256 * n) else ((p.bufs.drop k).take n).flatMap s.odbGet

/-- The buffers of n cells of a packet past the first k are freed once the cells have been written to a page; with its
last cell (last) go those that a shortened frame no longer fills (R191). -/
def State.freeCells (s : State) (quad k n : Nat) (last : Bool) (p : Pkt) : State × Pkt :=
  let m := if last then p.bufs.length - k else n
  (((p.bufs.drop k).take m).foldl (fun x b => x.freeOwn quad b) s,
   { p with bufs := p.bufs.take k ++ p.bufs.drop (k + m) })

/-- Free the ODB cells in the range [lo, hi) of a queue whose head holds h cells, and give the bytes that they held. -/
def State.freeRange (s : State) (quad h lo hi : Nat) (ps : List (Nat × Pkt)) : State × List Pkt × List Byte :=
  ps.foldl (fun (acc : State × List Pkt × List Byte) a =>
    let n := overlap a.1 (a.1 + a.2.cells) lo hi
    let k := overlap a.1 (a.1 + a.2.cells) 0 h
    let bs := acc.1.cellsOut a.2 (max lo a.1 - a.1) k n
    let r := if n = 0 then (acc.1, a.2) else acc.1.freeCells quad k n (decide (a.1 + a.2.cells ≤ hi)) a.2
    (r.1, acc.2.1 ++ [r.2], acc.2.2 ++ if n = 0 then [] else bs)) (s, [], [])

/-- Cells that one page of a pool holds. -/
def State.pageCells (s : State) (pool : Nat) : Nat := kindStep (s.poolKind pool) / 4

/-- Write one full page of tail cells (R210): a page is requested, the cells are written to it and freed; with no page the
tail stays unwritten and the request is retried (R213). The bytes of the cells stand in the page in their order
(DESIGN CHOICE, log 13); a page on an unmapped port takes none. -/
def State.shelve (s : State) (q : Nat) : State :=
  let x := s.queue q
  let pool := bits (s.shelveA q) 23 20
  let n := s.pageCells pool
  let quad := queueSlice q / 2
  match s.request .page pool quad 1 6 with
  | (s1, b :: _) =>
    let lo := x.head + x.shelved
    let r := s1.freeRange quad x.head lo (lo + n) (placed x.pkts)
    let ok := r.1.bufUsable b.pool b.num
    let s2 := if ok then r.1.stkPut (64 * b.num) r.2.2 else r.1
    (s2.setQueue q { x with
      pkts := r.2.1
      pages := x.pages ++ [⟨b, n, !ok, false⟩]
      tail := x.tail - n
      retry := false }).settleQueue q false
  | (s1, _) => s1.setQueue q { x with retry := true }

/-- A queue whose profile shelves holds a full page of tail cells, and shelving is not paused. -/
def State.canShelve (s : State) (q : Nat) : Bool :=
  let x := s.queue q
  let pool := bits (s.shelveA q) 23 20
  x.shelv && bit (s.shelveA q) 31 && !s.gddr.paused && decide (s.pageCells pool ≤ x.tail)

/-- SHELVE_PAGE (R210). -/
def execShelvePage (queue : Nat) (s : State) : Res :=
  if s.canShelve queue && !(s.queue queue).retry then .next (s.shelve queue) else .next s

/-- PAGE_REQUEST_RETRY (R213). -/
def execPageRequestRetry (queue : Nat) (s : State) : Res :=
  if s.canShelve queue && (s.queue queue).retry then .next (s.shelve queue) else .next s

/-- New cells for the recalled cells of one packet from the pool of its call slip, filled from the page at Stacks address
a; or the packet is to be dropped with POOL_EMPTY (R191, R198). A packet already to be dropped needs none. -/
def State.recallCells (s : State) (quad k n a : Nat) (p : Pkt) : State × Pkt :=
  if n = 0 ∨ p.bad.isSome then (s, p)
  else
    match s.cellsFor ((slipByte p.slip 0x3F).toNat % 16) quad 2 16 n with
    | (s1, some bs) =>
      (((List.range n).zip bs).foldl (fun x e => x.odbPut e.2 (x.stkGet (a + 256 * e.1) 256)) s1,
       { p with bufs := p.bufs.take k ++ bs ++ p.bufs.drop k })
    | (s1, none) => (s1, { p with bad := some 0x40 })

/-- The cells of the first page of a queue return to the head (R211), or its packets are lost with it (R208, R212). -/
def State.recallPage (s : State) (q : Nat) (pg : Page) (rest : List Page) (bad : Bool) : State :=
  let x := s.queue q
  let quad := queueSlice q / 2
  let lo := x.head
  let hi := x.head + pg.cells
  let r := (placed x.pkts).foldl (fun (acc : State × List Pkt) a =>
    let n := overlap a.1 (a.1 + a.2.cells) lo hi
    let k := overlap a.1 (a.1 + a.2.cells) 0 lo
    if n = 0 then (acc.1, acc.2 ++ [a.2])
    else if bad then (acc.1, acc.2 ++ [if a.2.bad.isSome then a.2 else { a.2 with bad := some 0x42 }])
    else
      let y := acc.1.recallCells quad k n (64 * pg.buf.num + 256 * (max lo a.1 - lo)) a.2
      (y.1, acc.2 ++ [y.2])) (s, [])
  ((r.1.setQueue q { x with pkts := r.2, head := hi, pages := rest }).freeOwn quad pg.buf).settleQueue q
    (decide (rest = []))

/-- RECALL_COMPLETE (R211): the oldest page of the queue in recall has been read; bad says that its CRC-32C fails. -/
def execRecallComplete (queue : Nat) (bad : Bool) (s : State) : Res :=
  match (s.queue queue).pages with
  | [] => .next s
  | pg :: rest =>
    if pg.recalling = false ∨ s.gddr.paused = true then .next s
    else
      let g := pagePort pg.buf.num
      let s1 := if bad && !pg.lost then s.bump (Reg.gdPageCrcCnt g) 1 else s
      .next (s1.recallPage queue pg rest (bad || pg.lost))

/-! ### Errors and lost ports -/

/-- The first page in recall on a port is lost (R208). -/
def loseRecalled (g : Nat) : List Page → List Page
  | [] => []
  | p :: ps => if p.recalling && pagePort p.buf.num == g && !p.lost then { p with lost := true } :: ps
    else p :: loseRecalled g ps

/-- The first queue with a page in recall on a port loses that page. -/
def State.loseOneRecall (s : State) (g : Nat) : State :=
  match s.tm.queues.find? (fun x => x.2.pages.any (fun p => p.recalling && pagePort p.buf.num == g && !p.lost)) with
  | none => s
  | some (q, x) => s.setQueue q { x with pages := loseRecalled g x.pages }

/-- The first posted write toward a port is discarded and counted (R208). -/
def State.loseOnePost (s : State) (g : Nat) : State :=
  match s.gddr.posts.find? (fun w => s.stripePort (w.addr / stripeBytes) == g) with
  | none => s
  | some w => { s with gddr := { s.gddr with posts := s.gddr.posts.erase w } }.postDrop w.quad

/-- EDC_FAILURE (R208): a transfer of a port failed its EDC and was recovered by a retry, or is uncorrectable with the
outcome its kind gives. -/
def execEdcFailure (port : Fin 24) (recovered : Bool) (what : Transfer) (s : State) : Res :=
  let g := port.val
  if s.gdMapped g = false then .next s
  else if recovered then .next (s.bump (Reg.gdRetryCnt g) 1)
  else
    let ticks := recentTicks (SMap.find [] s.gddr.uncorr g) s.now 65536
    let s1 := { s with gddr := { s.gddr with uncorr := SMap.set [] s.gddr.uncorr g ticks } }.bump (Reg.gdUncorrCnt g) 1
    match what with
    | .recall => .next (s1.loseOneRecall g)
    | .post => .next (s1.loseOnePost g)
    | .hostRead => .next { s1 with gddr := { s1.gddr with readFail := s1.gddr.readFail ++ [g] } }
    | .other => .next s1

/-- GDDR_PORT_LOST (R209): too many uncorrectable errors, or a device that no longer answers and cannot be retrained. -/
def execGddrPortLost (port : Fin 24) (stoppedAnswering : Bool) (s : State) : Res :=
  let g := port.val
  let lim := s.cfgF (Reg.gdLimit g) 15 8
  let n := ((SMap.find [] s.gddr.uncorr g).filter (fun t => decide (s.now < t + 65536))).length
  if s.gdMapped g && (stoppedAnswering || (decide (lim ≠ 0) && decide (lim ≤ n))) then .next (s.losePort g) else .next s

/-- REMAP_DONE (R209, Sequence 7.1): the remap table is rewritten, PORT_LOST is set and the notice is sent. -/
def execRemapDone (port : Fin 24) (s : State) : Res :=
  let g := port.val
  if s.gddr.remapping.contains g then
    let s1 := { s with gddr := { s.gddr with remapping := s.gddr.remapping.erase g } }.remapPort g
    .next ((s1.setEv (Reg.stkEvents (g / 6)) 2).notice 0x0022 [BitVec.ofNat 8 g, 0, 0, 0])
  else .next s

/-- LOST_PAGES_MARKED (R209): the shelved pages on the lost port are marked lost and shelving resumes. -/
def execLostPagesMarked (port : Fin 24) (s : State) : Res :=
  let g := port.val
  if s.gddr.marking.contains g && !s.gddr.remapping.contains g then
    let left := s.gddr.marking.erase g
    let s1 := { s with gddr := { s.gddr with marking := left, paused := decide (left ≠ []) } }
    .next (s.tm.queues.foldl (fun y x =>
      (y.setQueue x.1 { x.2 with
        pages := x.2.pages.map (fun p => if pagePort p.buf.num = g then { p with lost := true } else p) }).settleQueue
        x.1 false) s1)
  else .next s

/-- UNMAP (R209): the write of 1; the port is lost at the next boundary (R33). -/
def execUnmap (port : Fin 24) (s : State) : Res := .next (s.setEv (Reg.gdCtl port.val) 1)

/-- RETRAIN (R207): the write of 1; the port retrains from the next boundary on (R33). -/
def execRetrain (port : Fin 24) (s : State) : Res := .next (s.setEv (Reg.gdCtl port.val) 0)

/-- At a boundary the writes of GD_CTL take effect (R33): UNMAP loses its port (R209), RETRAIN of a port that serves makes
transfers to it wait while it retrains. A RETRAIN that finds its port neither serving nor retraining is cleared (DESIGN
CHOICE, log 79). -/
def State.gdCtlTick (s : State) (g : Nat) : State :=
  let s1 := if s.cfgB (Reg.gdCtl g) 1 then s.losePort g else s
  if s1.cfgB (Reg.gdCtl g) 0 = false ∨ s1.gdState g = 3 then s1
  else if s1.gdState g = 2 then s1.setGd g 3
  else s1.clrBit (Reg.gdCtl g) 0

/-- The outcome of a port's training (GD_STATUS). -/
def State.trainPort (s : State) (g result : Nat) : State :=
  let s1 := s.setRegF (Reg.gdStatus g) 15 8 result
  if result = 1 then (s1.setRegF (Reg.gdStatus g) 23 16 (s.cfgF (Reg.stkCfg (g / 6)) 5 0)).setGd g 2 else s1.setGd g 4

/-- GDDR_RETRAIN_DONE (R207): one port's retraining ends; a device that cannot be retrained loses its port (R209). -/
def execGddrRetrainDone (port : Fin 24) (result : BitVec 8) (s : State) : Res :=
  let g := port.val
  if s.gdMapped g = false ∨ s.gdState g ≠ 3 then .next s
  else
    let s1 := s.clrBit (Reg.gdCtl g) 0
    if result = 1 then .next (s1.trainPort g 1)
    else .next ((s1.setRegF (Reg.gdStatus g) 15 8 result.toNat).losePort g)

/-- RETRAIN_ALL (R207): the write of 1; refused in RUNNING. -/
def execRetrainAll (quad : Fin 4) (s : State) : Res :=
  if s.running then .next s else .next (s.setEv (Reg.stkCtl quad.val) 0)

/-- At a boundary at which RETRAIN_ALL stands written the quadrant's ports train again; an unmapped one stays unmapped until
reset (R33, R207). -/
def State.retrainAllTick (s : State) (quad : Nat) : State :=
  if s.cfgB (Reg.stkCtl quad) 0 = false ∨ s.gddr.training.contains quad = true then s
  else
    (List.range 6).foldl (fun x i => if x.gdState (6 * quad + i) = 4 then x else x.setGd (6 * quad + i) 1)
      { s with gddr := { s.gddr with training := s.gddr.training ++ [quad] } }

/-- The memory ports at a boundary. -/
def State.memTick (s : State) : State :=
  (List.range 4).foldl (fun x q => x.retrainAllTick q) ((List.range 24).foldl (fun x g => x.gdCtlTick g) s)

/-- TRAIN_DONE (R207): the training of a quadrant's ports completes with one result for each. -/
def execTrainDone (quad : Fin 4) (results : List (BitVec 8)) (s : State) : Res :=
  let q := quad.val
  if s.gddr.training.contains q = false then .next s
  else
    let s1 : State := { s with gddr := { s.gddr with training := s.gddr.training.filter (fun x => decide (x ≠ q)) } }
    let ports := ((List.range 6).map (fun i => 6 * q + i)).filter (fun g => decide (s.gdState g = 1))
    let s2 := ports.foldl (fun x g => x.trainPort g ((results.getD (g % 6) 0).toNat)) s1
    let s3 := (ports.filter (fun g => decide (s2.gdState g = 4))).foldl (fun x g => x.remapPort g) s2
    .next ((s3.clrBit (Reg.stkCtl q) 0).setEv (Reg.stkEvents q) 0)

/-- Each tick in which a queue's head is empty while a recall is outstanding is counted as RECALL_LATE (R211). -/
def State.countRecallLate (s : State) : State :=
  let n := (s.tm.queues.filter (fun x => decide (x.2.head = 0) && x.2.pages.any (fun p => p.recalling))).length
  { s with gddr := { s.gddr with recallLate := s.gddr.recallLate + n } }

end Sys2Proof.Machine
end

