-- ==== Sys2Proof/Machine/Packets.lean ====
section
/-! DEFINITION. Ports, queues and packets as the stages between the octet and transmit see them: which port exists and
is in service, where packets stand, their call slip fields and their marks (chapters 5, 8 and 9). -/

namespace Sys2Proof.Machine

/-! ### Ports (R251, R252, R258) -/

/-- Code of the half of an octet's mode word that holds local lane i (Table 9.1). -/
def halfCode (mode : Word32) (i : Nat) : Nat := if i < 4 then bits mode 11 8 else bits mode 15 12

/-- Lanes of the port that begins at local lane i of an octet with a given mode; 0 where no port begins (R251, R252). -/
def modeWidth (mode : Word32) (i : Nat) : Nat :=
  if bit mode 31 then (if i = 0 then 8 else 0)
  else
    match halfCode mode i with
    | 1 => if i % 4 = 0 then 4 else 0
    | 2 => if i % 2 = 0 then 2 else 0
    | 3 => 1
    | _ => 0

/-- Rate of that port in Gb/s; a single lane at 25.78125 Gb/s carries 25. -/
def modeRate (mode : Word32) (i : Nat) : Nat :=
  match modeWidth mode i with
  | 8 => 1600
  | 4 => 800
  | 2 => 400
  | 1 =>
    match if i < 4 then bits mode 1 0 else bits mode 5 4 with
    | 0 => 200
    | 1 => 100
    | 2 => 50
    | _ => 25
  | _ => 0

/-- Lanes of a network port; 0 for a number that names no port. -/
def State.portWidth (s : State) (p : Nat) : Nat := if p < 512 then modeWidth (s.cfg (Reg.octMode (p / 8))) (p % 8) else 0

/-- A port number names a port. -/
def State.portExists (s : State) (p : Nat) : Bool := decide (s.portWidth p ≠ 0)

/-- A lane begins a port by OCT_MODE as the register holds it: what the per-port registers go by (R252, log 62). -/
def State.portNamed (s : State) (p : Nat) : Bool :=
  decide (p < 512) && decide (modeWidth (s.reg (Reg.octMode (p / 8))) (p % 8) ≠ 0)

/-- Rate of a network port in Gb/s. -/
def State.portRate (s : State) (p : Nat) : Nat := modeRate (s.cfg (Reg.octMode (p / 8))) (p % 8)

/-- A lane lies in a half set to FABRIC (R273). -/
def State.laneFabric (s : State) (l : Nat) : Bool :=
  let m := s.cfg (Reg.octMode (l / 8))
  !bit m 31 && halfCode m (l % 8) == 4

/-- The same, by OCT_MODE as the register holds it: what the per-lane registers go by (R273, log 62). -/
def State.laneNamed (s : State) (l : Nat) : Bool :=
  let m := s.reg (Reg.octMode (l / 8))
  decide (l < 512) && (!bit m 31 && halfCode m (l % 8) == 4)

/-- Bits [hi:lo] of a port's OCT_PORT_CFG. -/
def State.portCfgF (s : State) (p hi lo : Nat) : Nat := s.cfgF (Reg.octPortCfg (p / 8) (p % 8)) hi lo

/-- EN of a port. -/
def State.portEn (s : State) (p : Nat) : Bool := s.cfgB (Reg.octPortCfg (p / 8) (p % 8)) 31

/-- LOOPBACK of a port; codes 4 to 7 act as 0 (Table 9.4). -/
def State.portLoop (s : State) (p : Nat) : Nat := let v := s.portCfgF p 30 28; if v < 4 then v else 0

/-- MAX_FRAME of a port. -/
def State.maxFrame (s : State) (p : Nat) : Nat := s.cfgF (Reg.octPortFrame (p / 8) (p % 8)) 29 16

/-- EN of a port's scheduling node. -/
def State.portNodeEn (s : State) (p : Nat) : Bool := s.cfgB (Reg.tmNode (p / 64) 0x78000 (p % 64) 0) 31

/-- A port is in service (R258). -/
def State.inService (s : State) (p : Nat) : Bool :=
  let st := (s.port p).state
  s.portExists p && (st == .up || st == .hold) && s.portNodeEn p && !s.tm.flushing.contains p && s.portLoop p != 2

/-! ### Queues (R230) -/

/-- EN of a queue. -/
def State.queueEn (s : State) (q : Nat) : Bool := bit (s.queueWord q 0) 31

/-- A queue belongs to a port. -/
def State.queueOf (s : State) (q p : Nat) : Bool := s.queueEn q && decide (s.queuePort q = p)

/-- The queues that hold anything and belong to a port. -/
def State.portQueues (s : State) (p : Nat) : List Nat :=
  (s.tm.queues.map (fun x => x.1)).filter (fun q => decide (s.queuePort q = p))

/-- Cells in the queues of a port. -/
def State.portDepth (s : State) (p : Nat) : Nat := ((s.portQueues p).map (fun q => (s.queue q).depth)).sum

/-! ### Packets -/

/-- Frame length including FCS. -/
def Pkt.len (p : Pkt) : Nat := p.data.length + 4

/-- TC_DP[2:0]. -/
def Pkt.tc (p : Pkt) : Nat := bits (slipByte p.slip 0x07) 2 0

/-- Colour: TC_DP[4:3], with 3 taken as red. -/
def Pkt.colour (p : Pkt) : Nat := min 2 (bits (slipByte p.slip 0x07) 4 3)

/-- DEST. -/
def Pkt.dest (p : Pkt) : Nat := slipGet p.slip 0x30 4

/-- DEST kind, port and queue. -/
def Pkt.destKind (p : Pkt) : Nat := p.dest / 2 ^ 28 % 16
def Pkt.destPort (p : Pkt) : Nat := p.dest / 2 ^ 18 % 1024
def Pkt.destQueue (p : Pkt) : Nat := p.dest % 2 ^ 18

/-- FATE as committed (Table 3.2). -/
def Pkt.fate (p : Pkt) : Nat := (slipByte p.slip 0x4C).toNat

/-- IN_PORT. -/
def Pkt.inPort (p : Pkt) : Nat := slipGet p.slip 0x02 2

/-- EG_ENTRY. -/
def Pkt.egEntry (p : Pkt) : Nat := (slipByte p.slip 0x3E).toNat % 64

/-- POOL. -/
def Pkt.pool (p : Pkt) : Nat := (slipByte p.slip 0x3F).toNat % 16

/-- RX_FLAGS bit n. -/
def Pkt.rxFlag (p : Pkt) (n : Nat) : Bool := bit (slipByte p.slip 0x05) n

/-- Set bytes of the call slip by the device. -/
def Pkt.setSlip (p : Pkt) (o n v : Nat) : Pkt := { p with slip := slipSet p.slip o n v }

/-- A multicast or mirror copy. -/
def Pkt.isCopy (p : Pkt) : Bool := p.orig.isSome || p.session.isSome

/-- A packet with nothing set. -/
def Pkt.blank : Pkt :=
  { id := 0, ord := 0, deq := 0, queue := none, txO := 0, txTick := 0, data := [], ended := true, bad := none, slip := 0,
    extract := 0, bufs := [], stream := .port 0, rxPort := 0, slice := 0, rxStamp := none, tsId := none,
    oneStep := false, noRun := false, drain := 0, origLen := 0, session := none, puntKind := none, group := none,
    orig := none, stomp := false, admitted := true,
    trunc := false, extDev := none, txAt := 0, byp := [] }

/-- FRAME_LEN as the egress side sees it: 16,383 while the end is still to come (R135; DEDUCED). -/
def Pkt.frameLen (p : Pkt) : Nat := if p.ended then p.len else 16383

/-- A frame shorter than 64 bytes is padded with zero bytes before its FCS (R148). -/
def padFrame (d : List Byte) : List Byte := d ++ List.replicate (60 - d.length) 0

/-- Change every packet, wherever it stands. -/
def State.mapPkts (f : Pkt → Pkt) (s : State) : State :=
  { s with
    threads := s.threads.map (fun x => (x.1, { x.2 with pkt := x.2.pkt.map f, binding := x.2.binding.map f }))
    slices := s.slices.map (fun x => (x.1, { x.2 with
      fifo := x.2.fifo.map f
      cip := x.2.cip.map (fun j => { j with pkt := f j.pkt })
      inj := x.2.inj.map f
      recq := x.2.recq.map f
      egress := x.2.egress.map f
      done := x.2.done.map f
      arrived := x.2.arrived.map f }))
    core := { s.core with
      transit := s.core.transit.map (fun t => { t with pkt := f t.pkt })
      waitHand := s.core.waitHand.map f }
    tm := { s.tm with
      queues := s.tm.queues.map (fun x => (x.1, { x.2 with pkts := x.2.pkts.map f }))
      hostQ := s.tm.hostQ.map (fun x => (x.1, x.2.map f))
      voq := s.tm.voq.map (fun x => (x.1, { x.2 with pkts := x.2.pkts.map f }))
      residue := s.tm.residue.map (fun c => { c with pkt := f c.pkt })
      jobs := s.tm.jobs.map (fun j => { j with pkt := f j.pkt })
      mirJobs := s.tm.mirJobs.map (fun j => { j with pkt := f j.pkt }) }
    ports := s.ports.map (fun x => (x.1, { x.2 with toCipher := x.2.toCipher.map f, wire := x.2.wire.map f })) }

/-- Every packet and copy the device holds. -/
def State.allPkts (s : State) : List Pkt :=
  s.threads.flatMap (fun x => x.2.pkt.toList ++ x.2.binding.toList) ++
  s.slices.flatMap (fun x => x.2.fifo ++ x.2.cip.map (fun j => j.pkt) ++ x.2.inj ++ x.2.recq ++ x.2.egress ++ x.2.done ++
    x.2.arrived) ++
  (s.core.transit.filter (fun t => !t.early)).map (fun t => t.pkt) ++ s.core.waitHand ++
  s.tm.queues.flatMap (fun x => x.2.pkts) ++ s.tm.hostQ.flatMap (fun x => x.2) ++ s.tm.voq.flatMap (fun x => x.2.pkts) ++
  s.tm.residue.map (fun c => c.pkt) ++ s.tm.jobs.map (fun j => j.pkt) ++ s.tm.mirJobs.map (fun j => j.pkt) ++
  s.ports.flatMap (fun x => x.2.toCipher ++ x.2.wire)

/-- The packets whose transmission has begun. -/
def State.onWire (s : State) : List Pkt := s.ports.flatMap (fun x => x.2.wire)

/-- A packet is the frame with a number, or a copy of it. -/
def Pkt.isOf (p : Pkt) (id : Nat) : Bool := p.id == id || p.orig == some id

/-- ODB cells held by packets received on a port, in a class (R239). -/
def State.pfcCells (s : State) (port cls : Nat) : Nat :=
  ((s.allPkts.filter (fun p => !p.isCopy && decide (p.rxPort = port) && !p.rxFlag 1 && decide (p.tc = cls))).map
    (fun p => p.bufs.length)).sum +
  ((s.tm.shared.filter (fun x => decide (x.2.port = port) && decide (x.2.cls = cls))).map
    (fun x => x.2.bufs.length)).sum

/-- The pause condition of R239 for a port and a class follows the cells and the thresholds: set above XOFF, cleared
below XON, off where XOFF is 0. -/
def State.notePfc1 (s : State) (port c : Nat) : State :=
  let w := s.cfg (Reg.tmPfcTh (port / 64) (port % 64) c)
  let n := s.pfcCells port c
  let x := s.port port
  let set := fun (b : Bool) => if bit x.txPause c = b then s else s.setPort port { x with txPause := setBits x.txPause c c (b2n b) }
  if bits w 31 16 = 0 then set false
  else if 16 * bits w 31 16 < n then set true
  else if n < 16 * bits w 15 0 then set false
  else s

/-- The pause conditions of every port with a threshold, or with a condition that holds (R239). -/
def State.notePfc (s : State) : State :=
  let th := s.dp.filterMap (fun e =>
    let off := caOff e.1
    let blk := caBlock e.1
    if 4 ≤ caNode e.1 ∧ (blk = 0x18 ∨ blk = 0x19) ∧ 0x7C000 ≤ off ∧ off < 0x7C800 then
      some (64 * (2 * (caNode e.1 - 4) + (blk - 0x18)) + (off - 0x7C000) / 32, (off - 0x7C000) / 4 % 8)
    else none)
  let on := s.ports.flatMap (fun x => (List.range 8).filterMap (fun c => if bit x.2.txPause c then some (x.1, c) else none))
  (th ++ on).foldl (fun x e => x.notePfc1 e.1 e.2) s

/-- A fresh number for a packet, a place in a stream or a place in dequeue order. -/
def State.fresh (s : State) : Nat × State := (s.nextId, { s with nextId := s.nextId + 1 })

/-! ### Admission stores (R142, R150, R154) -/

/-- Capacity of the admission FIFO, and of the inject and recirculation queues. -/
def fifoSize : Nat := 65536
def sideSize : Nat := 16384

/-- ACC_FIFO_PEAK and XOFF follow the occupancy of the FIFO (R143). -/
def State.noteFifo (s : State) (sl : Nat) : State :=
  let x := s.slice sl
  let n := fifoSum x.fifo
  let s1 := if (s.reg (Reg.accFifoPeak sl)).toNat < n then s.setReg (Reg.accFifoPeak sl) (BitVec.ofNat 32 n) else s
  if 64 * s.cfgF (Reg.accFifo sl) 26 16 < n then
    if x.xoff then s1 else (s1.setSlice sl { s1.slice sl with xoff := true }).setEv (Reg.accEvents sl) 1
  else if n < 64 * s.cfgF (Reg.accFifo sl) 10 0 then
    if x.xoff then s1.setSlice sl { s1.slice sl with xoff := false } else s1
  else s1

end Sys2Proof.Machine
end

