-- ==== Sys2Proof/Machine/Handoff.lean ====
section
/-! DEFINITION. The hand-off of packets from their ingress runs to the core, to virtual output queues and to the host, in
the order of their input streams (R146, R147, R217, R219, R237, R241, R242). -/

namespace Sys2Proof.Machine

/-! ### The core (R214 to R219) -/

/-- DEV_ID. -/
def State.devId (s : State) : Nat := s.cfgF Reg.coreCfg 21 16

/-- A traffic class is an express class (R218). -/
def State.express (s : State) (tc : Nat) : Bool := s.cfgB Reg.coreCfg tc

/-- The spray set, in ascending plane order (R216). -/
def State.sprayList (s : State) : List Nat := (List.range 16).filter (fun p => bit s.core.spray p)

/-- A plane. -/
def State.plane (s : State) (p : Nat) : Plane := SMap.find Plane.reset s.core.planes p

/-- Replace a plane. -/
def State.setPlane (s : State) (p : Nat) (x : Plane) : State :=
  { s with core := { s.core with planes := SMap.set Plane.reset s.core.planes p x } }

/-- The resequencer context of a stream (R220): 4,096 for each slice, then the 64 of the replication engine. -/
def ctxOf (kind srcDev srcSl dstSl tc : Nat) : Nat :=
  if kind = 3 then 4096 * 8 + 8 * srcSl + tc else 4096 * dstSl + 64 * srcDev + 8 * srcSl + tc

/-- Cells that a plane accepts, and that it delivers, in a tick (R216). -/
def planeRate : Nat := 625

/-- Send a cell into the core from a source: cell j of the source in tick n goes to plane P[(j + n) mod K] (R217). A plane that
has accepted its 625 cells of the tick, and an empty spray set, leave the cell and those behind it with their source until
the next tick (DEDUCED, log 27). -/
def State.sprayCell (s : State) (src : Nat) (c : Cell) : State :=
  let ps := s.sprayList
  let j := SMap.find 0 s.core.sprayJ src
  let p := ps.getD ((j + s.now) % ps.length) 0
  let x := s.plane p
  if ps = [] ∨ planeRate ≤ x.taken ∨ s.core.held.any (fun e => e.1 == src) = true then
    { s with core := { s.core with held := s.core.held ++ [(src, c)] } }
  else
    { s with core := { s.core with sprayJ := SMap.set 0 s.core.sprayJ src (j + 1) } }.setPlane p
      { x with q := x.q ++ [{ c with plane := p, tick := BitVec.ofNat 8 s.now }], taken := x.taken + 1 }

/-- In a new tick the sources send the cells that they held. -/
def State.sprayHeld (s : State) : State :=
  s.core.held.foldl (fun x e => x.sprayCell e.1 e.2) { s with core := { s.core with held := [] } }

/-- The number of the next cell of a stream, n numbers taken (R219). -/
def State.takeSeq (s : State) (key n : Nat) : BitVec 16 × State :=
  let v := SMap.find 0 s.core.seqs key
  (v, { s with core := { s.core with seqs := SMap.set 0 s.core.seqs key (v + BitVec.ofNat 16 n) } })

/-- Cells i of a packet, for i in a list, enter the core; last says whether they include its last (R214, R219). -/
def State.sendCells (s : State) (p : Pkt) (kind dstSl : Nat) (q : BitVec 16) (l : List Nat) (last : Bool) : State :=
  l.foldl (fun x i => x.sprayCell p.slice
    { pkt := p.id, first := decide (i = 0), last := last && decide (some i = l.getLast?), expr := s.express p.tc, tc := p.tc,
      seq := q + BitVec.ofNat 16 i, srcDev := s.devId, srcSl := p.slice, dstSl := dstSl, kind := kind, plane := 0, tick := 0,
      buf := p.bufs[i]?, copy := false, data := [] }) s

/-- A packet enters the core toward a slice, or as KIND 3 toward the replication engine. Of a frame whose end is still to
come its full cells go now, and the others when they have come. -/
def State.coreIn (s : State) (p : Pkt) (kind dstSl : Nat) : State :=
  let key := ctxOf kind s.devId p.slice dstSl p.tc
  let n := if p.ended then p.cells else p.data.length / 256
  let (q, s1) := s.takeSeq key n
  let t : Transit := if p.ended then ⟨p, kind, key, q, n, n, false, false, [], []⟩
    else ⟨{ p with data := p.data.take (256 * n), bufs := p.bufs.take n }, kind, key, q, n, n, true, false,
      p.data.drop (256 * n), p.bufs.drop n⟩
  { s1 with core := { s1.core with transit := s1.core.transit ++ [t] } }.sendCells p kind dstSl q (List.range n) p.ended

/-- The packet of a transit with the bytes and cells that are still to come. -/
def Transit.whole (t : Transit) : Pkt := { t.pkt with data := t.pkt.data ++ t.rest, bufs := t.pkt.bufs ++ t.restBufs }

/-- The slice a context lies at; the hub has the number 8. -/
def ctxSite (k : Nat) : Nat := k / 4096

/-- Replace a transit, or take it away. -/
def State.setTransit (s : State) (t : Transit) (u : Option Transit) : State :=
  { s with core := { s.core with transit := s.core.transit.flatMap (fun y => if y = t then u.toList else [y]) } }

/-- The ODB cells of a packet that are under way in the core. -/
def State.flying (s : State) (id : Nat) : List Buf :=
  (s.core.planes.flatMap (fun x => x.2.q) ++ s.core.held.map (fun e => e.2)).filterMap
    (fun c => if c.pkt = id ∧ c.copy = false then c.buf else none)

/-- Free buffers of a packet that is no more, but for those under way: they are freed as they arrive (R221, R222). -/
def State.freeLanded (s : State) (quad id : Nat) (l : List Buf) : State :=
  let up := s.flying id
  (l.filter (fun b => !up.contains b)).foldl (fun x b => x.freeOwn quad b) s

/-- The rest of a frame that entered the core before its end has come: its cells follow, the last with LAST. -/
def State.coreRest (s : State) (t : Transit) (rest : List Byte) (bufs : List Buf) : State :=
  let t1 := { t with pkt := { t.pkt with byp := [] }, rest := t.rest ++ rest, restBufs := t.restBufs ++ bufs }
  let w := { t1.whole with ended := true }
  let n := cellsOf w.data.length
  let t2 := { t1 with cells := n, more := false }
  let s1 := s.storeCells t1.restBufs (w.cellBytes.drop (256 * t.head))
  let s2 := (s1.takeSeq t.ctx (n - t.head)).2
  (s2.setTransit t (some t2)).sendCells
    { w with bufs := List.replicate (t.head - t.pkt.bufs.length) ⟨0, 0⟩ ++ w.bufs } t.kind (ctxSite t.ctx % 8) t.first
    ((List.range n).drop t.head) true

/-! ### Host-port queues (R237) -/

/-- The queue of class cls of a host port. -/
def State.hostQueue (s : State) (hp cls : Nat) : List Pkt := SMap.find [] s.tm.hostQ (8 * hp + cls)

/-- Replace the queue of class cls of a host port. -/
def State.setHostQueue (s : State) (hp cls : Nat) (l : List Pkt) : State :=
  { s with tm := { s.tm with hostQ := SMap.set [] s.tm.hostQ (8 * hp + cls) l } }

/-- Cells of packets. -/
def cellSum (l : List Pkt) : Nat := (l.map Pkt.cells).sum

/-- Pages after m shelved cells have been taken out of them past the first k: those left empty, those kept, and how many
of the m cells lay in the tail. -/
def cutPages : List Page → Nat → Nat → List Page × List Page × Nat
  | [], _, m => ([], [], m)
  | pg :: ps, k, m =>
    let d := min m (pg.cells - k)
    let r := cutPages ps (k - pg.cells) (m - d)
    if d = pg.cells then (pg :: r.1, r.2.1, r.2.2) else (r.1, { pg with cells := pg.cells - d } :: r.2.1, r.2.2)

/-- Take packet p out of a queue in which pre stand before it and post behind it, its cells wherever they are; a page with
no cell left is freed. An empty queue is resident. -/
def State.pullQueued (s : State) (q : Nat) (pre : List Pkt) (p : Pkt) (post : List Pkt) : State :=
  let x := s.queue q
  let k := cellSum pre
  let h := min (x.head - k) p.cells
  let r := cutPages x.pages (k - x.head) (p.cells - h)
  let s1 := s.setQueue q
    { x with
      pkts := pre ++ post
      head := x.head - h
      pages := r.2.1
      tail := x.tail - r.2.2
      shelv := x.shelv && decide (pre ++ post ≠ []) }
  r.1.foldl (fun y pg => y.freeOwn (queueSlice q / 2) pg.buf) s1

/-- A packet or copy arrives at a host-port queue. -/
def State.hostIn (s : State) (hp cls : Nat) (p : Pkt) : State :=
  let q := s.hostQueue hp cls
  let lim := s.cfgF Reg.coreLimits 15 0
  if lim ≠ 0 ∧ lim < cellSum q + p.cells then s.dropHub p 0x51 else s.setHostQueue hp cls (q ++ [p])

/-- Send a packet to the active host port (R146, R148). ORIG_LEN of a packet taken early whose end has come by now is its true
length (DEDUCED, log 88). -/
def State.punt (s : State) (k : PuntKind) (p : Pkt) : State :=
  s.hostIn s.dcp.active p.tc { p with puntKind := some k, origLen := if p.ended then p.len else 16383 }

/-! ### Virtual output queues (R242) -/

/-- The number of a virtual output queue. -/
def voqKey (slice dev dstSl tc : Nat) : Nat := ((slice * 64 + dev) * 8 + dstSl) * 8 + tc

/-- Destination, slice and class of a virtual output queue, and its ingress slice. -/
def voqDev (k : Nat) : Nat := k / 64 % 64
def voqSlice (k : Nat) : Nat := k / 4096
def voqTc (k : Nat) : Nat := k % 8
def voqCredit (k : Nat) : Nat := k % 4096

/-- A virtual output queue. -/
def State.voqAt (s : State) (k : Nat) : Voq := SMap.find ⟨[], 0⟩ s.tm.voq k

/-- Replace a virtual output queue. -/
def State.setVoq (s : State) (k : Nat) (v : Voq) : State := { s with tm := { s.tm with voq := SMap.set ⟨[], 0⟩ s.tm.voq k v } }

/-- An arrival would take a virtual output queue above VOQ_MAX × 64 cells. -/
def State.voqFull (s : State) (k : Nat) (p : Pkt) : Bool :=
  let lim := 64 * s.cfgF Reg.coreLimits 31 16
  decide (lim ≠ 0) && decide (lim < cellSum (s.voqAt k).pkts + p.cells)

/-- A packet joins a virtual output queue; its DEST names the local port of the remote device (R241). -/
def State.voqPut (s : State) (k dev rport : Nat) (p : Pkt) : State :=
  let v := s.voqAt k
  let p1 := { (p.setSlip 0x30 4 (p.destKind * 2 ^ 28 + rport * 2 ^ 18 + p.destQueue)) with extDev := some dev }
  s.setVoq k { v with pkts := v.pkts ++ [p1] }

/-- A packet arrives at the virtual output queue toward a remote port. -/
def State.voqIn (s : State) (slice dev rport : Nat) (p : Pkt) : State :=
  let k := voqKey slice dev (rport / 64) p.tc
  if s.voqFull k p then (s.dropIn p slice 0x51).setEv (Reg.tmEvents slice) 0 else s.voqPut k dev rport p

/-! ### System ports (R241) -/

/-- What a value of the DEST port field names. -/
inductive SysPort where
  | here (p : Nat) | remote (dev p : Nat) | host (hp : Nat) | nowhere
  deriving DecidableEq, Repr

/-- The system port of an index. -/
def State.sysPort (s : State) (i : Nat) : SysPort :=
  let w := s.cfg (Reg.coreSysport i)
  if i = 512 ∨ i = 513 then .host (i - 512)
  else if bit w 31 then .remote (bits w 21 16) (bits w 9 0)
  else if i < 512 then .here i
  else .nowhere

/-! ### Hand-off (R146, R147) -/

/-- Where in the core a packet with a committed ingress fate goes: KIND and slice, or none where it goes elsewhere or
nowhere (R146). -/
def State.coreDest (s : State) (p : Pkt) : Option (Nat × Nat) :=
  if p.bad.isSome ∨ p.fate = 3 then none
  else if p.fate = 2 ∨ p.destKind = 2 then some (3, 0)
  else if p.destKind = 1 then
    match s.sysPort p.destPort with
    | .here port => if s.portExists port && s.queueOf p.destQueue port then some (0, port / 64) else none
    | _ => none
  else none

/-- A packet with a committed ingress fate goes on (R146). -/
def State.sendOn (s : State) (p : Pkt) : State :=
  match p.bad, s.coreDest p with
  | some code, _ => s.dropIn p p.slice code
  | none, some (kind, dstSl) => s.coreIn p kind dstSl
  | none, none =>
    if p.fate = 3 then s.punt .ingress p
    else
      match p.destKind with
      | 0 => s.dropIn p p.slice 0x39
      | 1 =>
        match s.sysPort p.destPort with
        | .remote dev rport => s.voqIn p.slice dev rport p
        | _ => s.dropIn p p.slice 0x3A
      | 3 =>
        if p.destPort = 512 ∨ p.destPort = 513 then
          s.hostIn (p.destPort - 512) p.tc
            { p with puntKind := some .fwd, origLen := if p.ended then p.len else 16383 }
        else s.dropIn p p.slice 0x3A
      | _ => s.dropIn p p.slice 0x3A

/-- The stream that a packet goes to is still sending a frame whose end has not come: the cells of a packet follow one another
in its stream (DEDUCED, log 33). -/
def State.streamBusy (s : State) (p : Pkt) : Bool :=
  match s.coreDest p with
  | none => false
  | some (kind, dstSl) =>
    s.core.transit.any (fun t => t.more && decide (t.ctx = ctxOf kind s.devId p.slice dstSl p.tc))

/-- The packets of ingress runs and of the stores before them. -/
def State.ingressPkts (s : State) : List Pkt :=
  s.slices.flatMap (fun x => x.2.fifo ++ x.2.inj ++ x.2.recq) ++
  s.threads.flatMap (fun x => (if x.2.egress then [] else x.2.pkt.toList) ++ (if x.2.bindEg then [] else x.2.binding.toList))

/-- An earlier packet of the same stream has not yet been handed on (R147). -/
def State.mustWait (s : State) (p : Pkt) : Bool :=
  (s.ingressPkts ++ s.core.waitHand).any (fun x => decide (x.stream = p.stream) && decide (x.ord < p.ord))

/-- Insert a packet by its place in stream order. -/
def insertOrd (p : Pkt) : List Pkt → List Pkt
  | [] => [p]
  | x :: xs => if p.ord < x.ord then p :: x :: xs else x :: insertOrd p xs

/-- Hand on every waiting packet that no earlier packet of its input stream, and no frame still arriving in its stream of the
core, holds back. With no plane in the spray set nothing can leave, and packets wait (DEDUCED, log 27). -/
def State.releaseHand (s : State) : State :=
  if s.core.spray = 0 then s
  else
    s.core.waitHand.foldl (fun x p =>
      if x.mustWait p || x.streamBusy p then { x with core := { x.core with waitHand := x.core.waitHand ++ [p] } } else x.sendOn p)
      { s with core := { s.core with waitHand := [] } }

/-- A packet whose ingress run has committed a fate that sends it on (R147). -/
def State.handOff (s : State) (p : Pkt) : State :=
  { s with core := { s.core with waitHand := insertOrd p s.core.waitHand } }.releaseHand

end Sys2Proof.Machine
end

