-- ==== Sys2Proof/Machine/Sa.lean ====
section
/-! DEFINITION. SA contexts and the passes of the cipher engine on one frame: MACsec receive checks, MACsec protection and
ESP (chapter 11, sections 2, 4, 5 and 6). The passes follow IEEE 802.1AE-2018, RFC 4303, RFC 4106 and RFC 4543, which the
manual names; what is taken from their texts is PRESUMED (logs 30 and 31). -/

namespace Sys2Proof.Machine

/-! ### Contexts (R306) -/

/-- An SA context. -/
abbrev SaCtx := BitVec 1536

/-- The context of an index in a slice. -/
def State.saCtx (s : State) (slice i : Nat) : SaCtx := SMap.find 0 s.cipher.ctx (32768 * slice + i)

/-- Replace a context. -/
def State.setSaCtx (s : State) (slice i : Nat) (c : SaCtx) : State :=
  { s with cipher := { s.cipher with ctx := SMap.set 0 s.cipher.ctx (32768 * slice + i) c } }

/-- Bits [hi:lo] of word w of a context. -/
def saF (c : SaCtx) (w hi lo : Nat) : Nat := bits c (32 * w + hi) (32 * w + lo)

/-- Bit n of word w of a context. -/
def saB (c : SaCtx) (w n : Nat) : Bool := bit c (32 * w + n)

/-- MODE (Table 11.1). -/
def saMode (c : SaCtx) : Nat := saF c 0 30 28
/-- DIR: inbound. -/
def saIn (c : SaCtx) : Bool := saB c 0 27
/-- XPN. -/
def saXpn (c : SaCtx) : Bool := saB c 0 25
/-- A MACsec context. -/
def saMac (c : SaCtx) : Bool := saMode c == 1 || saMode c == 2
/-- An ESP or ESP_GMAC context. -/
def saEsp (c : SaCtx) : Bool := saMode c == 3 || saMode c == 4
/-- CONF_OFF in bytes; the reserved code acts as 0 here and is refused at enable (R320). -/
def saOff (c : SaCtx) : Nat := if saMode c = 1 then (match saF c 0 22 21 with | 1 => 30 | 2 => 50 | _ => 0) else 0
/-- WINDOW. -/
def saWindow (c : SaCtx) : Nat := saF c 1 10 0
/-- NEXT_PN. -/
def saNext (c : SaCtx) : Nat := saF c 8 63 0
/-- PN_CEIL. -/
def saCeil (c : SaCtx) : Nat := saF c 10 63 0
/-- PN_WARN. -/
def saWarn (c : SaCtx) : Nat := saF c 12 63 0
/-- SCI of a MACsec context. -/
def saSci (c : SaCtx) : Nat := saF c 2 63 0
/-- The 12-byte salt as a number, first byte most significant. -/
def saSalt (c : SaCtx) : Nat := saF c 5 95 0
/-- Replace NEXT_PN. The field cannot hold 2^64, the number past the last: it stays at the last (DESIGN CHOICE, log 94). -/
def saSetNext (c : SaCtx) (v : Nat) : SaCtx := setBits c 319 256 (min v (2 ^ 64 - 1))
/-- The replay bitmap: bit n records sequence number HIGH − n. -/
def saMap (c : SaCtx) : BitVec 1024 := c.extractLsb' 512 1024
/-- Replace the replay bitmap. -/
def saSetMap (c : SaCtx) (m : BitVec 1024) : SaCtx := setBits c 1535 512 m.toNat

/-- A key slot; KEK slot i stands at 262,144 + i. -/
def State.keySlot (s : State) (i : Nat) : Key := SMap.find ⟨0, false⟩ s.cipher.keys i

/-- The key of a context. -/
def State.saKey (s : State) (c : SaCtx) : Key := s.keySlot (saF c 0 17 0)

/-- The key bytes a context uses of a slot's 32. -/
def keyBytes (c : SaCtx) (k : BitVec 256) : List Nat :=
  let l := bytesOfNat 32 k.toNat
  if saB c 0 26 then l else l.take 16

/-- A pass found its key slot unwritten (KS_EVENTS). -/
def State.keyAbsent (s : State) : State := s.setEv Reg.ksEvents 1

/-- A packet number accepted by an inbound context moves NEXT_PN up only (R307, R310). -/
def State.acceptPn (s : State) (slice i pn : Nat) : State :=
  let c := s.saCtx slice i
  if saMac c && saIn c && decide (saNext c < pn + 1) then s.setSaCtx slice i (saSetNext c (pn + 1)) else s

/-! ### MACsec receive (R310) -/

/-- What the checks before the ICV say of a received frame. -/
inductive MacRx where
  /-- dropped with a reason -/
  | bad (code : Nat)
  /-- passed without a cipher pass; the BYPASS context that passed it, if one did -/
  | plain (ctx : Option Nat)
  /-- to be verified: context, PN, SecTAG length and secure data length -/
  | go (ctx pn tag sec : Nat)
  deriving DecidableEq, Repr

/-- Two bytes of a frame. -/
def frame16 (f : List Byte) (o : Nat) : Nat := beNat (slice0 f o 2)

/-- The frame carries a SecTAG. -/
def hasSecTag (f : List Byte) : Bool := frame16 f 12 == 0x88E5

/-- TCI and AN byte. -/
def tciOf (f : List Byte) : Byte := f.getD 14 0

/-- SecTAG length. -/
def tagLen (f : List Byte) : Nat := if bit (tciOf f) 5 then 16 else 8

/-- Secure data length by the SL byte and the length of the whole frame. -/
def secLen (f : List Byte) (total : Nat) : Nat :=
  let sl := (f.getD 15 0).toNat
  if sl = 0 then total - (12 + tagLen f + 16) else sl

/-- Well-formedness of a SecTAG. PRESUMED (log 30): V = 0, SC not together with ES or SCB, SL at most 47 and agreeing with
the frame's length unless the frame was padded to 64 bytes, PN not 0 without XPN, and room for the ICV. -/
def secTagOk (f : List Byte) (total : Nat) : Bool :=
  let tci := tciOf f
  let sl := (f.getD 15 0).toNat
  let need := 12 + tagLen f + 16
  !bit tci 7 && !(bit tci 5 && (bit tci 6 || bit tci 4)) && decide (sl ≤ 47) && decide (need ≤ total) &&
  (decide (sl = 0) || decide (need + sl = total) || (decide (total = 60) && decide (need + sl ≤ total)))

/-- The lowest enabled channel of a port with an SCI. -/
def State.rxChannel (s : State) (port : Nat) (f : List Byte) : Option Nat :=
  let sl := port / 64
  let en := s.cfgF (Reg.cipPortCfg sl (port % 64)) 3 0
  if bit (tciOf f) 5 then
    let sci := beNat (slice0 f 20 8)
    (List.range 4).find? (fun c => decide (en / 2 ^ c % 2 = 1) &&
      decide ((s.cfg (Reg.cipRxsc sl (port % 64) c 1)).toNat * 2 ^ 32 + (s.cfg (Reg.cipRxsc sl (port % 64) c 0)).toNat
        = sci))
  else if en % 2 = 1 then some 0 else none

/-- The full PN of a frame: with XPN its upper half follows the lowest acceptable PN. PRESUMED (log 30). -/
def fullPn (c : SaCtx) (lo : Nat) : Nat :=
  if saXpn c then
    let low := saNext c - saWindow c
    let hi := low / 2 ^ 32
    (if 2 ^ 31 ≤ low % 2 ^ 32 ∧ lo < 2 ^ 31 then hi + 1 else hi) * 2 ^ 32 + lo
  else lo

/-- Steps 1 to 6 of R310 on a frame of a port with RX_EN = 1; total is the frame's length without FCS. -/
def State.macsecCheck (s : State) (port : Nat) (f : List Byte) (total : Nat) : MacRx :=
  let sl := port / 64
  if hasSecTag f = false then
    if s.cfgB (Reg.cipPortCfg sl (port % 64)) 29 then .plain none else .bad 0x17
  else if secTagOk f total = false then .bad 0x17
  else
    match s.rxChannel port f with
    | none => .bad 0x17
    | some ch =>
      let i := (s.cfgF (Reg.cipPortSa sl (port % 64)) 30 16 + 4 * ch + bits (tciOf f) 1 0) % 32768
      let c := s.saCtx sl i
      let ec := bits (tciOf f) 3 2
      let lo := beNat (slice0 f 16 4)
      let pn := fullPn c lo
      let n := secLen f total
      if saMode c = 0 then .plain (some i)
      else if saMac c = false ∨ saIn c = false ∨ ec ≠ (if saMode c = 1 then 3 else 0) then .bad 0x17
      else if saXpn c = false ∧ lo = 0 then .bad 0x17
      else if (s.saKey c).written = false then .bad 0x13
      else if saWindow c ≠ 0 ∧ pn + saWindow c < saNext c then .bad 0x12
      else if saMode c = 1 ∧ n ≤ saOff c then .bad 0x15
      else .go i pn (tagLen f) n

/-- The GCM nonce of a MACsec frame. -/
def macNonce (c : SaCtx) (pn : Nat) : List Nat :=
  if saXpn c then bytesOfNat 12 (saSalt c ^^^ (saF c 4 31 0 * 2 ^ 64 + pn)) else bytesOfNat 12 (saSci c * 2 ^ 32 + pn)

/-- The plaintext frame of n secure bytes, whatever its ICV: addresses and decrypted secure data. -/
def macPlain (c : SaCtx) (ks : List (List Nat)) (f : List Nat) (pn tag n : Nat) : List Nat :=
  let sec := (f.drop (12 + tag)).take n
  f.take 12 ++ (if saMode c = 2 then sec else sec.take (saOff c) ++ gctr ks (macNonce c pn) (sec.drop (saOff c)))

/-- The ICV of a MACsec frame from its addresses and SecTAG, its secure data as sent and its mode. -/
def macIcv (c : SaCtx) (ks : List (List Nat)) (hdr sec : List Nat) (pn : Nat) : List Nat :=
  if saMode c = 2 then gcmTag ks (macNonce c pn) (hdr ++ sec) []
  else gcmTag ks (macNonce c pn) (hdr ++ sec.take (saOff c)) (sec.drop (saOff c))

/-- The ICV of a received frame matches. -/
def macGood (c : SaCtx) (ks : List (List Nat)) (f : List Nat) (pn tag n : Nat) : Bool :=
  decide (macIcv c ks (f.take (12 + tag)) ((f.drop (12 + tag)).take n) pn = (f.drop (12 + tag + n)).take 16)

/-! ### Outbound packet numbers (R312) -/

/-- The body of PN_WARN and PN_EXHAUSTED (Table 13.4). -/
def pnBody (slice i pn : Nat) : List Byte := [BitVec.ofNat 8 slice, 0] ++ beBytes 2 i ++ beBytes 8 pn

/-- An outbound context has no PN left: it is STOPPED, with its event and notice. -/
def State.stopPn (s : State) (slice i pn : Nat) : State :=
  ((s.setSaCtx slice i (setBits (s.saCtx slice i) 31 31 1)).setEv (Reg.cipEvents slice) 1).notice 0x0031 (pnBody slice i pn)

/-- Take the next PN of an outbound context, or stop it: the PN, or none with PN_EXHAUSTED. A context that takes the last PN,
2^64 − 1, stops with it, since NEXT_PN cannot pass it (DESIGN CHOICE, log 94). -/
def State.takePn (s : State) (slice i : Nat) : State × Option Nat :=
  let c := s.saCtx slice i
  if saB c 0 31 then (s, none)
  else
    let pn := if saMac c ∧ saNext c = 0 then 1 else saNext c
    if (saCeil c ≠ 0 ∧ saCeil c < pn) ∨ (saXpn c = false ∧ 0xFFFFFFFF < pn) then (s.stopPn slice i pn, none)
    else
      let s1 := s.setSaCtx slice i (saSetNext c (pn + 1))
      if pn = 2 ^ 64 - 1 then (s1.stopPn slice i pn, some pn)
      else if saWarn c ≠ 0 ∧ saNext c < saWarn c ∧ saWarn c ≤ pn + 1 then
        ((s1.setEv (Reg.cipEvents slice) 0).notice 0x0030 (pnBody slice i (pn + 1)), some pn)
      else (s1, some pn)

/-! ### Passes on a frame -/

/-- What a pass makes of a frame: dropped with a reason, or the new frame. -/
inductive PassOut where
  | bad (code : Nat)
  | ok (f : List Nat)
  deriving DecidableEq, Repr

/-- A frame and its FCS would exceed 16,383 bytes (R314). -/
def tooLong (f : List Nat) : Bool := decide (16383 < f.length + 4)

/-- The outbound MACsec pass with a PN (R313). -/
def macSeal (c : SaCtx) (key : List Nat) (f : List Nat) (pn : Nat) : PassOut :=
  let ks := roundKeys key
  let sec := f.drop 12
  let tci := (if saB c 0 20 then 0x20 else 0) + (if saMode c = 1 then 0x0C else 0) + saF c 0 19 18
  let tag := [0x88, 0xE5, tci, if sec.length < 48 then sec.length else 0] ++ bytesOfNat 4 pn ++
    (if saB c 0 20 then bytesOfNat 8 (saSci c) else [])
  let hdr := f.take 12 ++ tag
  if saMode c = 1 ∧ sec.length ≤ saOff c then .bad 0x15
  else
    let out := if saMode c = 2 then sec else sec.take (saOff c) ++ gctr ks (macNonce c pn) (sec.drop (saOff c))
    let g := hdr ++ out ++ macIcv c ks hdr out pn
    if tooLong g then .bad 0x16 else .ok g

/-- Replace n bytes of a frame from offset o by the big-endian value v. -/
def putNat (f : List Nat) (o n v : Nat) : List Nat := f.take o ++ bytesOfNat n v ++ f.drop (o + n)

/-- n bytes of a frame from offset o as a number. -/
def getNat (f : List Nat) (o n : Nat) : Nat := natOfBytes (((f.drop o).take n) ++ List.replicate (n - ((f.drop o).take n).length) 0)

/-- The IPv4 header at offset o with its checksum recomputed. -/
def ipv4Sum (f : List Nat) (o : Nat) : List Nat :=
  let n := 4 * (f.getD o 0 % 16)
  let g := putNat f (o + 10) 2 0
  putNat g (o + 10) 2 (0xFFFF - onesSum 0 (bytesOf ((g.drop o).take n)))

/-- The length field of the IP header at offset o set, and the IPv4 checksum recomputed. -/
def ipSetLen (v6 : Bool) (f : List Nat) (o v : Nat) : List Nat :=
  if v6 then putNat f (o + 4) 2 v else ipv4Sum (putNat f (o + 2) 2 v) o

/-- The length field of the IP header at offset o. -/
def ipLen (v6 : Bool) (f : List Nat) (o : Nat) : Nat := if v6 then getNat f (o + 4) 2 else getNat f (o + 2) 2

/-- The GCM nonce of ESP: salt and IV. -/
def espNonce (c : SaCtx) (iv : List Nat) : List Nat := bytesOfNat 4 (saF c 7 31 0) ++ iv

/-- The SPI and sequence number that ESP authenticates, with the ESN high half between them where XPN = 1. -/
def espAad (c : SaCtx) (spi seq : Nat) : List Nat :=
  if saXpn c then bytesOfNat 4 spi ++ bytesOfNat 8 seq else bytesOfNat 4 spi ++ bytesOfNat 4 seq

/-- The ICV of ESP over what is sent. -/
def espIcv (c : SaCtx) (ks : List (List Nat)) (spi seq : Nat) (iv body : List Nat) : List Nat :=
  if saMode c = 4 then gcmTag ks (espNonce c iv) (espAad c spi seq ++ iv ++ body) []
  else gcmTag ks (espNonce c iv) (espAad c spi seq) body

/-- The outbound ESP pass with a PN: h and ip are the offsets HDR_OFF gives (R313). -/
def espSeal (c : SaCtx) (key : List Nat) (f : List Nat) (h ip pn : Nat) : PassOut :=
  if h = 0xFF ∨ ip = 0xFF ∨ f.length < h + 16 then .bad 0x16
  else if saMode c = 3 ∧ f.length = h + 16 then .bad 0x15
  else
    let ks := roundKeys key
    let nh := f.getD (h + 15) 0
    let iv := bytesOfNat 8 pn
    let spi := getNat f h 4
    let text := f.drop (h + 16)
    let pad := (4 - (text.length + 2) % 4) % 4
    let body := text ++ (List.range pad).map (fun i => i + 1) ++ [pad, nh]
    let sent := if saMode c = 3 then gctr ks (espNonce c iv) body else body
    let icv := espIcv c ks spi pn iv sent
    let g := f.take h ++ bytesOfNat 4 spi ++ bytesOfNat 4 (pn % 2 ^ 32) ++ iv ++ sent ++ icv
    let v6 := saB c 0 23
    if tooLong g then .bad 0x16 else .ok (ipSetLen v6 g ip (ipLen v6 f ip + (pad + 18)))

/-! ### Inbound ESP (R315) -/

/-- The full sequence number of a received packet (RFC 4303, Appendix A). PRESUMED (log 31). -/
def espSeq (c : SaCtx) (lo : Nat) : Nat :=
  if saXpn c = false then lo
  else
    let w := max 1 (saWindow c)
    let t := saNext c - 1
    let th := t / 2 ^ 32
    let tl := t % 2 ^ 32
    if w - 1 ≤ tl then (if tl - (w - 1) ≤ lo then th else th + 1) * 2 ^ 32 + lo
    else (if tl + 2 ^ 32 - (w - 1) ≤ lo then th - 1 else th) * 2 ^ 32 + lo

/-- A sequence number lies outside the replay window or was seen (RFC 4303, 3.4.3). -/
def espReplay (c : SaCtx) (seq : Nat) : Bool :=
  let high := saNext c - 1
  decide (saWindow c ≠ 0) && decide (seq ≤ high) && (decide (saWindow c ≤ high - seq) || bit (saMap c) (high - seq))

/-- A context after accepting a sequence number: bitmap and NEXT_PN. -/
def espAccept (c : SaCtx) (seq : Nat) : SaCtx :=
  let high := saNext c - 1
  if high < seq then
    saSetNext (saSetMap c (if 1024 ≤ seq - high then 1 else (saMap c <<< (seq - high)) ||| 1)) (seq + 1)
  else if high - seq < 1024 then saSetMap c (saMap c ||| (1 : BitVec 1024) <<< (high - seq))
  else c

/-- The frame with the ESP packet at h of the IP packet at ip opened: inner holds the payload, nh its Next Header. -/
def espStrip (c : SaCtx) (f : List Nat) (h ip nh : Nat) (inner : List Nat) : PassOut :=
  let v6 := saB c 0 23
  if saB c 0 24 then
    let head := f.take ip
    let head1 := if nh = 4 then putNat head (ip - 2) 2 0x0800 else if nh = 41 then putNat head (ip - 2) 2 0x86DD else head
    .ok (head1 ++ inner)
  else if v6 then
    if h ≠ ip + 40 then .bad 0x16
    else .ok (ipSetLen true (putNat (f.take h ++ inner) (ip + 6) 1 nh) ip inner.length)
  else .ok (ipSetLen false (putNat (f.take h ++ inner) (ip + 9) 1 nh) ip (h - ip + inner.length))

/-- The inbound ESP pass: the outcome, and where the ICV is right the sequence number to accept. -/
def espOpen (c : SaCtx) (key : Option (List Nat)) (f : List Nat) (h ip : Nat) : PassOut × Option Nat :=
  let v6 := saB c 0 23
  let claim := (if v6 then 40 else 0) + ipLen v6 f ip
  let e := ip + claim
  if h = 0xFF ∨ ip = 0xFF ∨ 65535 < claim ∨ f.length < e ∨ e < h + 32 then (.bad 0x16, none)
  else
    let sent := (f.drop (h + 16)).take (e - (h + 32))
    let spi := getNat f h 4
    let seq := espSeq c (getNat f (h + 4) 4)
    if saMode c = 3 ∧ sent = [] then (.bad 0x15, none)
    else if spi ≠ saF c 2 31 0 then (.bad 0x10, none)
    else
      match key with
      | none => (.bad 0x13, none)
      | some k =>
        let ks := roundKeys k
        let iv := (f.drop (h + 8)).take 8
        if espReplay c seq then (.bad 0x12, none)
        else if espIcv c ks spi seq iv sent ≠ (f.drop (e - 16)).take 16 then (.bad 0x10, none)
        else
          let body := if saMode c = 3 then gctr ks (espNonce c iv) sent else sent
          let pad := body.getD (body.length - 2) 0
          if body.length < pad + 2 then (.bad 0x16, some seq)
          else (espStrip c f h ip (body.getLastD 0) (body.take (body.length - 2 - pad)), some seq)

end Sys2Proof.Machine
end

