-- ==== Sys2Proof/Machine/Scribe.lean ====
section
/-! DEFINITION. Runs and their aborts, machine checks, spares and the scrubber (chapter 3, sections 4, 6 and 9). -/

namespace Sys2Proof.Machine

/-- A run in progress: READY or BLOCKED. -/
def Thread.unretired (th : Thread) : Bool := th.state == .ready || th.state == .blocked

/-- A thread after its run has ended: FREE, or BOUND if it holds a binding for the next tick (R60). -/
def Thread.release (th : Thread) : Thread :=
  { Thread.idle with
    state := if th.binding.isSome then .bound else .free
    binding := th.binding
    bindEg := th.bindEg
    bindPc := th.bindPc
    bindW := th.bindW }

/-- The physical Scribe behind a logical one (R59, R99); 64 and above are the spares. -/
def Cluster.physOf (c : Cluster) (i : Nat) : Nat :=
  let v := SMap.find 0 c.phys i
  if v = 0 then i else v

/-- The slice of a thread by its number. -/
def tidSlice (n : Nat) : Nat := n / 2048

/-- The cluster of a thread by its number. -/
def tidCluster (n : Nat) : Nat := n / 512

/-- Abort a run (R82): its packet is dropped with a reason, its reservations go back to the caches they came from,
its commit buffer is discarded, and packets that waited for it go on (R147). -/
def State.abortRun (s : State) (n reason : Nat) : State :=
  let th := s.threadN n
  let sl := tidSlice n
  let s1 := th.taken.reverse.foldl (fun x b => x.unreserve (sl / 2) b) s
  let s2 := match th.pkt with
    | some p => s1.dropIn p sl reason
    | none => s1
  (s2.setThreadN n th.release).releaseHand

/-- Drop the packet bound to a thread for the next tick, with a reason. -/
def State.abortBinding (s : State) (n reason : Nat) : State :=
  let th := s.threadN n
  match th.binding with
  | none => s
  | some p =>
    ((s.dropIn p (tidSlice n) reason).setThreadN n
      { th with binding := none, state := if th.state = .bound then .free else th.state }).releaseHand

/-- The threads of a Scribe. -/
def scribeThreads (cluster scribe : Nat) : List Nat := (List.range 8).map (fun i => 512 * cluster + 8 * scribe + i)

/-- The threads of a cluster that hold anything. -/
def State.clusterThreads (s : State) (cluster : Nat) : List Nat :=
  (s.threads.map (fun x => x.1)).filter (fun n => n / 512 == cluster)

/-- Abort the unretired runs of some threads. -/
def State.abortRuns (s : State) (l : List Nat) (reason : Nat) : State :=
  l.foldl (fun x n => if (x.threadN n).unretired then x.abortRun n reason else x) s

/-- Drop the packets bound to some threads. -/
def State.abortBindings (s : State) (l : List Nat) (reason : Nat) : State :=
  l.foldl (fun x n => x.abortBinding n reason) s

/-- A Scribe issues nothing more in this tick (R98). -/
def State.scribeHalted (s : State) (cluster scribe : Nat) : Bool := s.halted.contains (scribeIdx cluster scribe)

/-- A word fails parity in both copies (R101): the cluster enters FAILED. Its unretired and bound runs are aborted at
the next boundary. A further double failure is counted and sets CLUSTER_FAIL, but raises no second Vigil event (DESIGN CHOICE, log 84). -/
def State.clusterFail (s : State) (k : Nat) : State :=
  let s1 := (s.bump (Reg.psShadowErr (k / 4)) 1).setEv (Reg.scrEvents (k / 4)) (4 * (k % 4) + 3)
  let c := s1.cluster k
  if c.state = .failed then s1 else (s1.setCluster k { c with state := .failed }).vigil' 0x0003 k

/-- SCR_MC_LAST, its count and its event (R98). -/
def State.noteCheck (s : State) (k src addr thread phys : Nat) : State :=
  ((s.setReg (Reg.scrMcLast (k / 4) (k % 4))
      (BitVec.ofNat 32 (src * 2 ^ 30 + addr % 2 ^ 14 * 2 ^ 16 + thread * 2 ^ 8 + phys))).bump
    (Reg.scrMcCnt (k / 4) (k % 4)) 1).setEv (Reg.scrEvents (k / 4)) (4 * (k % 4))

/-- Where a nanoword stands among the words of the two control stores. -/
def nanoKey (i : Nat) : Nat := 16384 + i

/-- Words of 32 bits with a parity bit each: two to an instruction word, twelve to a nanoword (R97). -/
def keyWords (key : Nat) : Nat := if key < 16384 then 2 else 12

/-- Some of n words of 32 bits fails its parity, when a copy differs from what was loaded by e; the parity bits stand above the
words. -/
def parityBad (n : Nat) (e : BitVec 396) : Bool :=
  (List.range n).any (fun g =>
    decide (((List.range 32).filter (fun i => bit e (32 * g + i))).length % 2 ≠ b2n (bit e (32 * n + g))))

/-- Bits of both copies of a word are upset. -/
def Cluster.upset (c : Cluster) (key : Nat) (main shadow : BitVec 396) : Cluster :=
  { c with
    mainErr := SMap.set 0 c.mainErr key (SMap.find 0 c.mainErr key ^^^ main)
    shadErr := SMap.set 0 c.shadErr key (SMap.find 0 c.shadErr key ^^^ shadow) }

/-- The main copy, and the shadow copy, of a word fails its parity. -/
def Cluster.mainFails (c : Cluster) (key : Nat) : Bool := parityBad (keyWords key) (SMap.find 0 c.mainErr key)
def Cluster.shadFails (c : Cluster) (key : Nat) : Bool := parityBad (keyWords key) (SMap.find 0 c.shadErr key)

/-- The main copy of a word is rewritten from the shadow copy. -/
def Cluster.restore (c : Cluster) (key : Nat) : Cluster :=
  { c with mainErr := SMap.set 0 c.mainErr key (SMap.find 0 c.shadErr key) }

/-- Both copies of a range of words are as the image that is loaded into it. -/
def Cluster.freshStore (c : Cluster) (lo hi : Nat) : Cluster :=
  let keep := fun (i : Nat) => decide (i < lo) || decide (hi ≤ i)
  { c with
    mainErr := c.mainErr.filter (fun x => keep x.1)
    shadErr := c.shadErr.filter (fun x => keep x.1)
    rewrite := c.rewrite.filter keep }

/-- In the housekeeping cycles the words that failed in the last tick are rewritten (R98). -/
def Cluster.rewritten (c : Cluster) : Cluster := c.rewrite.foldl Cluster.restore { c with rewrite := [] }

/-- The nanoword index of a word of the program store. -/
def State.nanoIndex (s : State) (k addr : Nat) : Nat :=
  match (s.cluster k).prog with
  | none => 0
  | some p => bits (p.words.getD addr 0) 63 52

/-- The word that a thread is about to issue, or its nanoword, fails its parity in the main copy (R97): where it stands. -/
def State.fetchBad (s : State) (t : Tid) : Option Nat :=
  let k := t.cluster.val
  let pc := (s.thread t).pc
  [pc, nanoKey (s.nanoIndex k pc)].find? (s.cluster k).mainFails

/-- The thread of a Scribe that issues the next word: the first READY one after the thread that issued last (R61). Before the
first issue that is thread 0 (DESIGN CHOICE, log 98). -/
def State.nextThread (s : State) (k i : Nat) : Option Nat :=
  let v := SMap.find 0 s.issuer (scribeIdx k i)
  ((List.range 8).map (fun j => (v + j) % 8)).find? (fun j => (s.threadN (512 * k + 8 * i + j)).state == .ready)

/-- A thread of a Scribe that may issue the next word. -/
def State.canIssue (s : State) (t : Tid) : Bool :=
  !s.scribeHalted t.cluster.val t.scribe.val && !(s.cluster t.cluster.val).noPhys.contains t.scribe.val &&
  s.nextThread t.cluster.val t.scribe.val == some t.thread.val

/-- SOURCE and address of a machine check (SCR_MC_LAST): the copies of a word, or the budget. -/
def Cluster.checkCode (c : Cluster) (pc : Nat) : Option Nat → Nat × Nat
  | none => (2, pc)
  | some key => (if c.shadFails key then 3 else if key < 16384 then 0 else 1, if key < 16384 then key else key - 16384)

/-- A machine check on the word about to issue (R97 to R101): of a word whose main copy fails, or of the budget. A check exactly
2^20 ticks after a first one is a first one again (DESIGN CHOICE, log 82). -/
def State.machineCheck (s : State) (t : Tid) (bad : Option Nat) : State :=
  let k := t.cluster.val
  let i := t.scribe.val
  let c := s.cluster k
  let phys := c.physOf i
  let (src, addr) := c.checkCode (s.thread t).pc bad
  let s1 := (s.noteCheck k src addr t.thread.val phys).abortRuns (scribeThreads k i) 0x35
  let s2 := { s1 with halted := s1.halted ++ [scribeIdx k i] }
  let s3 := if src = 3 then s2.clusterFail k
    else s2.setCluster k { s2.cluster k with rewrite := (s2.cluster k).rewrite ++ bad.toList }
  let first := SMap.find 0 c.mcFirst phys
  if first = 0 ∨ first - 1 + 2 ^ 20 ≤ s.now then
    s3.setCluster k { s3.cluster k with mcFirst := SMap.set 0 c.mcFirst phys (s.now + 1) }
  else { s3 with spareIn := s3.spareIn ++ [(k, i)] }

/-- At the boundary a Scribe with a second machine check is retired: the runs bound to it are aborted and the lowest
unused spare takes its number, or none is left (R99, R100). -/
def State.retireScribe (s : State) (k i : Nat) : State :=
  let c := s.cluster k
  let phys := c.physOf i
  let j := k % 4
  let sl := k / 4
  let s1 := s.abortBindings (scribeThreads k i) 0x35
  let s2 := if phys < 32 then s1.setReg (Reg.scrRetiredLo sl j) (setBits (s1.reg (Reg.scrRetiredLo sl j)) phys phys 1)
    else if phys < 64 then
      s1.setReg (Reg.scrRetiredHi sl j) (setBits (s1.reg (Reg.scrRetiredHi sl j)) (phys - 32) (phys - 32) 1)
    else
      let n := phys - 64
      s1.setReg (Reg.scrSpareMap sl j) (setBits (s1.reg (Reg.scrSpareMap sl j)) (8 * n + 7) (8 * n + 6) 1)
  if c.sparesOut < 4 then
    let n := c.sparesOut
    let s3 := s2.setReg (Reg.scrSpareMap sl j)
      (setBits (s2.reg (Reg.scrSpareMap sl j)) (8 * n + 7) (8 * n) (128 + i))
    ((s3.setCluster k { s3.cluster k with phys := SMap.set 0 c.phys i (64 + n), sparesOut := n + 1 }).setEv
      (Reg.scrEvents sl) (4 * j + 1)).vigil' 0x0001 (256 * k + phys)
  else
    ((s2.setCluster k { s2.cluster k with noPhys := c.noPhys ++ [i] }).setEv
      (Reg.scrEvents sl) (4 * j + 2)).vigil' 0x0002 (256 * k + phys)

/-- MACHINE_CHECK (R97, R98): bits of the word that a thread is about to issue, or of its nanoword, have been upset in the two
copies; or its budget is spent. An upset that leaves every parity right is not found. -/
def execMachineCheck (t : Tid) (src : McSource) (u : Upsets) (s : State) : Res :=
  let th := s.thread t
  let k := t.cluster.val
  if s.canIssue t = false then .next s
  else if src = .budget then (if th.issued < th.wcet then .next s else .next (s.machineCheck t none))
  else
    let key := if src = .program then th.pc else nanoKey (s.nanoIndex k th.pc)
    let s1 := s.setCluster k ((s.cluster k).upset key u.main u.shadow)
    match s1.fetchBad t with
    | none => .next s1
    | some bad => .next (s1.machineCheck t (some bad))

/-- Words of the two control stores of a cluster: 16,384 and 4,096. -/
def storeWords : Nat := 20480

/-- The word that the scrubber of a cluster reads next (R102): a store without an image has none, and a pass begins 65,536 ticks after
the one before it. That a pass goes through the program store, then the Codex, is a DESIGN CHOICE (log 99). -/
def Cluster.scrubNext (c : Cluster) (now : Nat) : Option Nat :=
  if c.scrubAt = 0 ∧ c.scrubTick ≠ 0 ∧ now + 1 < c.scrubTick + 65536 then none
  else if c.scrubAt < 16384 ∧ c.prog.isSome then some c.scrubAt
  else if c.codex.isSome then some (max 16384 c.scrubAt)
  else none

/-- The scrubber goes on from a word. -/
def Cluster.scrubbed (c : Cluster) (i now : Nat) : Cluster :=
  { c with
    scrubTick := if c.scrubAt = 0 then now + 1 else c.scrubTick
    scrubAt := if i + 1 = storeWords ∨ (i + 1 = 16384 ∧ c.codex.isNone) then 0 else i + 1 }

/-- SCRUB_VISIT (R102): the scrubber reads the next word, of whose copies bits may have been upset. -/
def execScrubVisit (cluster : Fin 32) (store : Store) (addr : Nat) (main shadow : BitVec 396) (s : State) : Res :=
  let k := cluster.val
  let c := s.cluster k
  let i := if store = .program then addr else nanoKey addr
  if s.coreOn = false ∨ s.cfgB (Reg.psScrubCtl (k / 4)) 0 = false ∨ c.scrubNext s.now ≠ some i then .next s
  else
    let c1 := (c.upset i main shadow).scrubbed i s.now
    let s1 := s.setCluster k c1
    if c1.mainFails i = false then .next s1
    else if c1.shadFails i then .next (s1.clusterFail k)
    else .next ((s1.setCluster k (c1.restore i)).bump (Reg.psScrubCnt (k / 4)) 1)

/-- A tick overrun of one run (R51). -/
def State.overrun (s : State) (n : Nat) : State := (s.abortRun n 0x34).setEv Reg.almEvents 2

/-- The first of R81's causes that ends a run still unretired at the end of its tick: the host stop of its cluster, or the overrun. -/
def State.endOfTick (s : State) (n : Nat) : State :=
  if (s.cluster (tidCluster n)).stopNext then s.abortRun n 0x36 else s.overrun n

/-- TICK_OVERRUN (R51, R81): a run still unretired at the end of its tick. -/
def execTickOverrun (t : Tid) (s : State) : Res :=
  if (s.thread t).unretired then .next (s.endOfTick (tidIdx t)) else .next s

end Sys2Proof.Machine
end

