-- ==== Sys2Proof/Machine/Accession.lean ====
section
/-! DEFINITION. Accession: receive, the parse graph, the call slip, the admission stores, placement and the egress
dispatcher (chapter 5; R45 to R47). -/

namespace Sys2Proof.Machine

/-! ### The parse graph (R137 to R140) -/

/-- The active parse bank of a slice. -/
def State.activeBank (s : State) (sl : Nat) : Nat := b2n (bit (s.reg (Reg.accCtl sl)) 0)

/-- Where a parse stands: cursor, call slip under construction (HDR_OFF) and extract. -/
structure ParseAt where
  cursor : Nat
  slip   : BitVec 1024
  ext    : BitVec 1024
  deriving DecidableEq, Repr

/-- n window bytes from offset o, big-endian; bytes beyond the window read as 0 (R138). -/
def winNat (win : List Byte) (o n : Nat) : Nat := beNat (slice0 win o n)

/-- Header length of a state whose words are w (R139 step 2). -/
def stateLen (w : Nat → Word32) (win : List Byte) (cur : Nat) : Nat :=
  let base := bits (w 1) 7 0
  if bit (w 1) 22 then
    base + (((win.getD (cur + bits (w 1) 15 8) 0).toNat >>> bits (w 1) 18 16) &&& bits (w 2) 31 24) <<< bits (w 1) 21 19
  else base

/-- Extract k of a state: bytes beyond extract byte 127 are discarded (R139 step 4). -/
def stateExtract (w : Word32) (win : List Byte) (cur : Nat) (ext : BitVec 1024) : BitVec 1024 :=
  (List.range (min 32 (bits w 13 8))).foldl
    (fun e i => slipPut e (bits w 22 16 + i) (win.getD (cur + bits w 31 24 + i) 0)) ext

/-- Next state by the transitions (R139 step 5). -/
def stateNext (w : Nat → Word32) (sel : Nat) : Nat :=
  match (List.range 8).find? (fun k => bit (w 2) (16 + k) && decide (sel &&& bits (w (5 + k)) 31 16 = bits (w (5 + k)) 15 0))
  with
  | some k => bits (w (13 + k / 4)) (8 * (k % 4) + 7) (8 * (k % 4))
  | none => bits (w 0) 7 0

/-- Visit states until a terminal one, with fuel visits left; the class, or none where a limit ended the parse (R139,
R140). The last byte of a header of odd length is summed as the high byte of a word, as R116 states for the CSUM word
(DEDUCED, log 87). -/
def State.parseGo (s : State) (sl bank : Nat) (win : List Byte) : Nat → Nat → ParseAt → ParseAt × Option Nat
  | 0, _, a => (a, none)
  | fuel + 1, n, a =>
    let w := fun i => s.cfg (Reg.accState sl bank n i)
    let slip := if bit (w 0) 29 && decide (a.cursor ≤ 254) then
        slipPut a.slip (0x10 + bits (w 0) 28 24) (BitVec.ofNat 8 a.cursor)
      else a.slip
    let len := stateLen w win a.cursor
    let ext := stateExtract (w 4) win a.cursor (stateExtract (w 3) win a.cursor a.ext)
    if bit (w 0) 30 && decide (onesSum 0 (slice0 win a.cursor len) ≠ 0xFFFF) then
      s.parseGo sl bank win fuel (bits (w 0) 15 8) ⟨a.cursor, slip, ext⟩
    else if bit (w 0) 31 then (⟨a.cursor, slip, ext⟩, some (bits (w 0) 21 16))
    else if 256 < a.cursor + len then (⟨a.cursor, slip, ext⟩, none)
    else
      let sel := winNat win (a.cursor + bits (w 1) 31 24) (if bit (w 1) 23 then 2 else 1)
      s.parseGo sl bank win fuel (stateNext w sel) ⟨a.cursor + len, slip, ext⟩

/-- PARSE_DEPTH; 17 to 31 act as 16. -/
def State.parseDepth (s : State) (sl : Nat) : Nat := min 16 (s.cfgF (Reg.accParse sl) 20 16)

/-- A call slip with every HDR_OFF absent and all else zero. -/
def slipBase : BitVec 1024 := (BitVec.allOnes 256).zeroExtend 1024 <<< 128

/-- What a parse gives: call slip with HDR_OFF, extract, and the class, or none where the packet is to be dropped. -/
structure Parsed where
  slip    : BitVec 1024
  ext     : BitVec 1024
  cls     : Option Nat
  limited : Bool
  deriving DecidableEq, Repr

/-- Parse a frame from a start state (R139, R140). -/
def State.parse (s : State) (sl start : Nat) (data : List Byte) : Parsed :=
  let (a, c) := s.parseGo sl (s.activeBank sl) (data.take 256) (s.parseDepth sl) start ⟨0, slipBase, 0⟩
  match c with
  | some cls => ⟨a.slip, a.ext, some cls, false⟩
  | none =>
    ⟨a.slip, a.ext, if s.cfgB (Reg.accParse sl) 0 then none else some (s.cfgF (Reg.accParse sl) 13 8), true⟩

/-- PARSE_LIMIT is set where a limit ended the parse. -/
def State.noteParse (s : State) (sl : Nat) (r : Parsed) : State := if r.limited then s.setEv (Reg.accEvents sl) 3 else s

/-! ### The call slip (Table 5.1) -/

/-- Fill the fields of Table 5.1 into a call slip that holds the parse's HDR_OFF. -/
def buildSlip (slip : BitVec 1024) (len inPort cls flags recirc tcdp ns tick pool : Nat) : BitVec 1024 :=
  let a := slipSet slip 0x00 2 len
  let a := slipSet a 0x02 2 inPort
  let a := slipSet a 0x04 1 cls
  let a := slipSet a 0x05 1 flags
  let a := slipSet a 0x06 1 recirc
  let a := slipSet a 0x07 1 tcdp
  let a := slipSet a 0x08 4 ns
  let a := slipSet a 0x0C 4 tick
  slipSet a 0x3F 1 pool

/-- ADMIT_NS at an instant of this tick (R136). -/
def State.stampNs (s : State) (dt : Word64) : Nat := (nsOf (s.oAt dt)).toNat

/-- ADMIT_TICK. -/
def State.stampTick (s : State) : Nat := s.now % 2 ^ 32

/-! ### Mirroring at the point where a packet is seen (R248) -/

/-- Word w of a mirror session. -/
def State.mirWord (s : State) (m w : Nat) : Word32 := s.cfg (Reg.mirSession m w)

/-- A session is enabled and of a type. -/
def State.mirUsable (s : State) (m type : Nat) : Bool := bit (s.mirWord m 0) 31 && decide (bits (s.mirWord m 0) 29 28 = type)

/-- A session of a type sees a packet and takes one in every RATE. Which of them it takes is a FREE VALUE (log 28). -/
def State.mirrorSee (s : State) (m type : Nat) (p : Pkt) : State :=
  let rate := bits (s.mirWord m 1) 31 16
  if s.mirUsable m type = false ∨ rate = 0 then s
  else
    let n := SMap.find 0 s.tm.mirSeen m
    let s1 := { s with tm := { s.tm with mirSeen := SMap.set 0 s.tm.mirSeen m (n + 1) } }
    if n % rate = Config.mirrorPhase m % rate then
      { s1 with tm := { s1.tm with mirJobs := s1.tm.mirJobs ++
        [⟨m, { p with bufs := [], orig := none, session := some m, puntKind := none, queue := none, stomp := false }⟩] } }
    else s1

/-! ### Admission (R134 to R136, R142, R143) -/

/-- A packet enters the admission FIFO, or is dropped with ADMIT_FULL (R142). -/
def State.fifoIn (s : State) (sl : Nat) (p : Pkt) : State :=
  let x := s.slice sl
  if fifoSize < fifoSum x.fifo + p.fifoBytes then (s.dropIn p sl 0x20).setEv (Reg.accEvents sl) 2
  else (s.setSlice sl { x with fifo := x.fifo ++ [p] }).noteFifo sl

/-- Accession takes a packet from a network port: mirror, parse, call slip, the frame into its cells, FIFO (R136, R142, R190,
R248). -/
def State.accTake (s : State) (port : Nat) (p : Pkt) (flags len : Nat) (dt : Word64) : State :=
  let sl := port / 64
  let c := s.cfg (Reg.accPortCfg sl (port % 64))
  let (o, s0) := s.fresh
  let r := s0.parse sl (bits c 7 0) p.data
  let slip := buildSlip r.slip len port (r.cls.getD 0) flags 0 (bits c 22 20 + 8 * bits c 19 18) (s.stampNs dt)
    s.stampTick (bits c 27 24)
  let p1 := { p with ord := o, slip := slip, extract := r.ext }
  let m := s.cfg (Reg.mirPort port)
  let s1 := ((if bit m 7 then s0.mirrorSee (bits m 4 0) 0 p1 else s0).noteParse sl r).storePkt p1
  match r.cls with
  | none => s1.dropIn p1 sl 0x21
  | some _ => s1.fifoIn sl p1

/-- A receive stamp: O at the start of the frame, back before an instant dt of this tick, less RX_ADJ, to 1/256 ns, with J and
the active domain of that moment (R326, R327). -/
def State.rxStampOf (s : State) (port : Nat) (dt back : Word64) : BitVec 64 × BitVec 64 × Nat :=
  let adj : BitVec 16 := (s.cfg (Reg.timePort port 1)).extractLsb' 0 16
  let x := s.sfd dt back
  ((x.1 - BitVec.ofInt 64 (adj.toInt * 2 ^ 24)) &&& ~~~(0xFFFFFF : BitVec 64), x.2)

/-- Number of an error of R256, or none. -/
def State.rxCode (s : State) (port len : Nat) (err : RxErr) : Option Nat :=
  if err = .code then some 0x04
  else if len < 64 then some 0x02
  else if s.maxFrame port < len then some 0x03
  else if err = .fcs then some 0x01
  else none

/-- The port counters of a received frame (Table 14.2). -/
def State.countRx (s : State) (port len : Nat) (bad : Bool) : State :=
  if bad then s.addCtr (portCtr port 2) 1 else (s.addCtr (portCtr port 0) 1).addCtr (portCtr port 1) len

/-- The codewords that ended with a frame are counted (OCT_PORT_CW_CORR, OCT_PORT_CW_UNCORR, OCT_PORT_SYM_CORR). A codeword that holds
parts of several frames counts with one of them (DESIGN CHOICE, log 105). -/
def State.countFec (s : State) (port : Nat) (e : RxEnd) : State :=
  let o := port / 8
  let i := port % 8
  ((s.bump (Reg.octPortCwCorr o i) e.corrected).bump (Reg.octPortCwUncorr o i) e.uncorrectable).bump (Reg.octPortSymCorr o i) e.symbols

/-! ### Pause (R257, R262) -/

/-- FLOW of a port: 0 NONE, 1 PAUSE, 2 PFC. -/
def State.portFlow (s : State) (p : Nat) : Nat := s.portCfgF p 17 16

/-- A mask with bits set and cleared by a list of times: bit c of sel picks a priority. -/
def pauseMask (old sel : BitVec 8) (times : List (BitVec 16)) : BitVec 8 :=
  (List.range 8).foldl (fun m c =>
    if bit sel c then setBits m c c (b2n (decide (times.getD c 0 ≠ 0))) else m) old

/-- Whole ticks in a pause time: quanta of 512 bit times at the port rate, in Gb/s (R262). -/
def pauseTicks (quanta rate : Nat) : Nat := quanta * 512 / (160 * max 1 rate)

/-- The ticks in which the pauses of the priorities picked can end at the earliest: a pause ends in that tick or in the next. -/
def pauseEnds (now rate : Nat) (old : SMap Nat) (sel : BitVec 8) (times : List (BitVec 16)) : SMap Nat :=
  (List.range 8).foldl (fun m c =>
    if bit sel c then (m.drop c).insert c (now + pauseTicks (times.getD c 0).toNat rate) else m) old

/-- A PAUSE or PFC frame is consumed: counted, and acted on if it is of the port's kind (R262). -/
def State.pauseRx (s : State) (port : Nat) (pfc : Bool) (enables : BitVec 8) (times : List (BitVec 16)) : State :=
  let s1 := s.bump (Reg.octPortPauseRx (port / 8) (port % 8)) 1
  let x := s1.port port
  let flow := s.portFlow port
  if pfc && decide (flow = 2) then
    let sel := enables &&& BitVec.ofNat 8 (s.cfgF (Reg.octPortPfc (port / 8) (port % 8)) 15 8)
    s1.setPort port { x with
      rxPaused := pauseMask x.rxPaused sel times
      pauseEnd := pauseEnds s.now (s.portRate port) x.pauseEnd sel times }
  else if !pfc && decide (flow = 1) then
    let all := List.replicate 8 (times.getD 0 0)
    s1.setPort port { x with
      rxPaused := pauseMask x.rxPaused 0xFF all
      pauseEnd := pauseEnds s.now (s.portRate port) x.pauseEnd 0xFF all }
  else s1

/-- A frame is a PAUSE or PFC frame (R257). -/
def isPause (f : List Byte) : Bool :=
  frame16 f 12 == 0x8808 && (frame16 f 14 == 0x0001 || frame16 f 14 == 0x0101)

/-- Act on such a frame. -/
def State.pauseFrame (s : State) (port : Nat) (f : List Byte) : State :=
  if frame16 f 14 = 0x0101 then
    s.pauseRx port true (f.getD 17 0) ((List.range 8).map (fun c => BitVec.ofNat 16 (frame16 f (18 + 2 * c))))
  else s.pauseRx port false 0 [BitVec.ofNat 16 (frame16 f 16)]

/-! ### Receive (R134, R135, R256) -/

/-- RX_EN and RX_CUT of a port (CIP_PORT_CFG). -/
def State.cipRx (s : State) (port n : Nat) : Bool := s.cfgB (Reg.cipPortCfg (port / 64) (port % 64)) n

/-- A port takes frames early: CUT_THROUGH, and RX_CUT where the port decrypts (R134, R311). -/
def State.cutPort (s : State) (port : Nat) : Bool :=
  s.cfgB (Reg.accPortCfg (port / 64) (port % 64)) 31 && (!s.cipRx port 31 || s.cipRx port 30)

/-- A network port that can receive. -/
def State.rxUp (s : State) (port : Nat) : Bool := s.portExists port && (s.port port).state == .up

/-- It is in near-end PMA or PCS loopback: its receiver takes what its transmitter sends, and nothing from the line (R265). -/
def State.looped (s : State) (port : Nat) : Bool := decide (s.portLoop port = 1) || decide (s.portLoop port = 3)

/-- It receives from its line. -/
def State.rxLine (s : State) (port : Nat) : Bool := s.rxUp port && !s.looped port

/-- A new packet of a port with its cells. -/
def newPkt (id port : Nat) (data : List Byte) (bufs : List Buf) (ended : Bool)
    (st : BitVec 64 × BitVec 64 × Nat) : Pkt :=
  { Pkt.blank with id := id, data := data, ended := ended, bufs := bufs, stream := .port port, rxPort := port,
                   slice := port / 64, rxStamp := some st }

/-- Cells for n bytes of a frame on a port, one at a time as the bytes arrive (R190). -/
def State.rxCells (s : State) (port n : Nat) : State × Option (List Buf) :=
  s.cellsFor (s.cfgF (Reg.accPortCfg (port / 64) (port % 64)) 27 24) (port / 128) 0 1 ((n + 255) / 256)

/-- Cells for a stored frame; a frame without error, or none where it has been dropped. -/
def State.storeFrame (s : State) (port : Nat) (data : List Byte) (err : RxErr) : State × Option (List Buf) :=
  let len := data.length + 4
  let code := s.rxCode port len err
  match s.rxCells port (min len (s.maxFrame port + 1)) with
  | (s1, none) => (s1.countDrop (port / 64) 0x40, none)
  | (s1, some bufs) =>
    match code with
    | some c => ((bufs.foldl (fun x b => x.freeOwn (port / 128) b) s1).countDrop (port / 64) c, none)
    | none => (s1, some bufs)

/-- A whole frame arrives on a port that holds frames until their end. -/
def State.rxWhole (s : State) (port : Nat) (data : List Byte) (err : RxErr) (dt back : Word64) : State :=
  let len := data.length + 4
  let bad := (s.rxCode port len err).isSome
  let s1 := s.countRx port len bad
  if !bad && isPause data then s1.pauseFrame port data
  else if s1.running = false then s1
  else
    match s1.storeFrame port data err with
    | (s2, none) => s2
    | (s2, some bufs) =>
      let (id, s3) := s2.fresh
      let p := { newPkt id port data bufs true (s.rxStampOf port dt back) with drain := s.dcp.drainNo }
      if s.cipRx port 31 then
        s3.setPort port { s3.port port with toCipher := (s3.port port).toCipher ++ [p] }
      else s3.accTake port p 0 len dt

/-- The start of a decrypted frame: the packet's known plaintext, and what the ICV check will need (R311). -/
def State.cutDecrypt (s : State) (port i pn tag n : Nat) (data : List Byte) (id : Nat) : List Byte × IcvWait :=
  let sl := port / 64
  let c := s.saCtx sl i
  let k := (s.saKey c).val
  let f := natsOf data
  let have' := f.length - (12 + tag + 16)
  let plain := bytesOf (macPlain c (roundKeys (keyBytes c k)) f pn tag (min n have'))
  (plain, ⟨id, port, i, c, pn, k, data, plain.length, false⟩)

/-- A cut-through frame waits for its ICV check. -/
def State.setIcv (s : State) (w : IcvWait) : State :=
  { s with cipher := { s.cipher with icv := (s.cipher.icv.drop w.pkt).insert w.pkt w } }

/-- It waits no more. -/
def State.dropIcv (s : State) (id : Nat) : State := { s with cipher := { s.cipher with icv := s.cipher.icv.drop id } }

/-- Accession takes a frame whose first bytes have arrived (R134, R135): the packet carries RX_FLAGS[3] and FRAME_LEN
16,383. On a port with RX_CUT the plaintext passes as it is decrypted (R311). A PAUSE or PFC frame goes no further (R257). -/
def State.cutTake (s : State) (port : Nat) (data : List Byte) (dt back : Word64) : State :=
  let sl := port / 64
  let (id, s0) := s.fresh
  let part := fun (sa : Option Nat) (ctl : Option (List Byte)) (x : State) =>
    { x with rx := (x.rx.drop port).insert port ⟨id, data.length, sa, ctl⟩ }
  if isPause data then part none (some data) s0
  else if s0.running = false then part none none s0
  else
    match (part none none s0).rxCells port data.length with
    | (s2, none) => s2.countDrop sl 0x40
    | (s2, some bufs) =>
      let p := { newPkt id port data bufs false (s.rxStampOf port dt back) with drain := s.dcp.drainNo }
      if s.cipRx port 31 then
        match s2.macsecCheck port data 16379 with
        | .bad code => (if code = 0x13 then s2.keyAbsent else s2).dropIn p sl code
        | .plain sa => (part sa none s2).accTake port p 8 16383 dt
        | .go i pn tag n =>
          let (plain, w) := s2.cutDecrypt port i pn tag n data id
          (s2.setIcv w).accTake port { p with data := plain } 8 16383 dt
      else s2.accTake port p 8 16383 dt

/-- The cells that copies share are written anew with the bytes of the frame (R245). -/
def State.storeShared (s : State) (id : Nat) (data : List Byte) : State :=
  match s.tm.shared.find? (fun x => x.1 == id) with
  | none => s
  | some (_, h) =>
    ((List.range h.bufs.length).zip h.bufs).foldl (fun x e => x.odbPut e.2 ((data.drop (256 * e.1)).take 256)) s

/-- A frame with the rest of its bytes: FRAME_LEN is then the true length, unless it is still before an ingress run or in one
(R135), and a frame above 16,383 bytes is to be dropped (R120). -/
def Pkt.extended (p : Pkt) (ingress : Bool) (rest : List Byte) (bufs : List Buf) : Pkt :=
  let q := { p with data := p.data ++ rest, ended := true, bufs := if p.isCopy then p.bufs else p.bufs ++ bufs }
  if ingress then q
  else { q.setSlip 0x00 2 (min 16383 q.len) with bad := if 16383 < q.len ∧ q.bad.isNone then some 0x38 else q.bad }

/-- The BYPASS contexts that a frame passed before its end had come count it (R303, R358). -/
def State.countByp (s : State) (p : Pkt) : State := p.byp.foldl (fun x i => x.countSa (i / 32768) (i % 32768) p.len) s

/-- A frame whose transmission began before its end had come is padded now, where it is still too short (R148). -/
def State.padLate (s : State) (id : Nat) : State :=
  let f := fun (p : Pkt) => if p.isOf id then { p with data := padFrame p.data } else p
  { s with
    ports := s.ports.map (fun (x : Nat × Port) => (x.1, { x.2 with wire := x.2.wire.map f }))
    slices := s.slices.map (fun (x : Nat × Slice) => (x.1, { x.2 with
      cip := x.2.cip.map (fun j => if j.recirc then j else { j with pkt := f j.pkt }) })) }

/-- Append the rest of an unended frame wherever it and its copies stand; new cells join the frame, or those its copies
share, or are freed where there is none of it any more. A run in progress keeps the FRAME_LEN it began with if it is an
ingress run. -/
def State.joinRest (s : State) (id : Nat) (rest : List Byte) (bufs : List Buf) : State :=
  let f := fun (ingress : Bool) (p : Pkt) => if p.isOf id && !p.ended then p.extended ingress rest bufs else p
  let mine := fun (th : Thread) => (th.pkt.elim false (fun p => p.isOf id && !p.ended)) && th.state != .bound
  let len := fun (th : Thread) => min 16383 (th.win.length + th.tail.length + rest.length + 4)
  let thread := fun (th : Thread) =>
    { (if mine th then { th with
          tail := th.tail ++ rest
          slip := if th.egress then slipSet th.slip 0x00 2 (len th) else th.slip } else th) with
      pkt := th.pkt.map (f (!th.egress))
      binding := th.binding.map (f (!th.bindEg)) }
  let grow := fun (x : Queue) =>
    let d := cellSum (x.pkts.map (f false)) - cellSum x.pkts
    (if x.shelv then { x with tail := x.tail + d } else { x with head := x.head + d }).note
  let early := fun (x : Slice) =>
    { x with fifo := x.fifo.map (f true), inj := x.inj.map (f true), recq := x.recq.map (f true) }
  let s1 := { s with
    threads := s.threads.map (fun (x : Nat × Thread) => (x.1, thread x.2))
    slices := s.slices.map (fun (x : Nat × Slice) => (x.1, early x.2))
    tm := { s.tm with
      queues := s.tm.queues.map (fun (x : Nat × Queue) => (x.1, grow x.2))
      shared := s.tm.shared.map (fun (x : Nat × Shared) => if x.1 = id then (x.1, { x.2 with bufs := x.2.bufs ++ bufs }) else x) } }
  let s2 := (s1.mapPkts (f false)).padLate id
  let s3 := ((s2.allPkts.filter (fun p => p.isOf id)).foldl (fun x p => x.countByp p) s2).mapPkts
    (fun p => if p.isOf id then { p with byp := [] } else p)
  match s3.allPkts.find? (fun p => p.isOf id) with
  | none => bufs.foldl (fun x b => x.freeOwn 0 b) s3
  | some p => if p.isCopy then s3.storeShared id p.cellBytes else s3.storePkt p

/-- The rest of an unended frame: it follows the frame into the core, or joins it where it stands. -/
def State.extendPkt (s : State) (id : Nat) (rest : List Byte) (bufs : List Buf) : State :=
  match s.core.transit.find? (fun t => t.more && decide (t.pkt.id = id)) with
  | some t => (if t.early then s else s.countByp { t.whole with data := t.whole.data ++ rest }).coreRest t rest bufs
  | none => s.joinRest id rest bufs

/-- Drop at once the packets of a slice that are the failed frame and wait in it. -/
def State.dropWaiting (s : State) (id code sl : Nat) : State :=
  let x := s.slice sl
  let gone := (x.fifo ++ x.inj ++ x.recq ++ x.egress ++ x.done ++ x.arrived).filter (fun p => p.isOf id)
  if gone = [] then s
  else
    let s1 := s.setSlice sl { x with
      fifo := x.fifo.filter (fun p => !p.isOf id)
      inj := x.inj.filter (fun p => !p.isOf id)
      recq := x.recq.filter (fun p => !p.isOf id)
      egress := x.egress.filter (fun p => !p.isOf id)
      done := x.done.filter (fun p => !p.isOf id)
      arrived := x.arrived.filter (fun p => !p.isOf id) }
    (gone.foldl (fun y p => y.dropIn p sl code) s1).noteFifo sl

/-- Drop at once the packets of an egress queue that are the failed frame; n bounds them. -/
def State.dropQueue (s : State) (id code q : Nat) : Nat → State
  | 0 => s
  | n + 1 =>
    let l := (s.queue q).pkts
    let pre := l.takeWhile (fun p => !p.isOf id)
    match l.drop pre.length with
    | [] => s
    | p :: post => ((s.pullQueued q pre p post).dropIn p (queueSlice q) code).dropQueue id code q n

/-- Drop at once the packets of a virtual output queue that are the failed frame, but for one of which a cell has left. -/
def State.dropVoq (s : State) (id code k : Nat) : State :=
  let v := s.voqAt k
  let n := if v.sent = 0 then 0 else 1
  let l := v.pkts.drop n
  (l.filter (fun p => p.isOf id)).foldl (fun y p => y.dropIn p (voqSlice k) code)
    (s.setVoq k { v with pkts := v.pkts.take n ++ l.filter (fun p => !p.isOf id) })

/-- Drop at once the packets that are the failed frame and wait at the hub: toward a host port or in the residue. -/
def State.dropAtHub (s : State) (id code : Nat) : State :=
  let gone := s.tm.hostQ.flatMap (fun x => x.2.filter (fun p => p.isOf id)) ++
    (s.tm.residue.filter (fun c => c.pkt.isOf id)).map (fun c => c.pkt)
  gone.foldl (fun y p => y.dropHub p code) ({ s with tm := { s.tm with
    hostQ := s.tm.hostQ.mapV [] (fun l => l.filter (fun p => !p.isOf id)) } }.setResidue
      (s.tm.residue.filter (fun c => !c.pkt.isOf id)))

/-- The transit of a frame whose end is bad. Of one that stands past the core nothing more is to come, but where its rest is
under way to a wire; one with no cell sent is dropped here, and any other when it leaves the core. -/
def State.failTransit (s : State) (code : Nat) (t : Transit) : State :=
  let p := t.whole
  if t.early then
    if t.more = false ∧ s.onWire.any (fun q => q.isOf t.pkt.id) = true then s
    else (s.setTransit t none).freeLanded (p.slice / 2) p.id t.restBufs
  else if t.head = 0 ∧ t.more = true then (s.setTransit t none).dropIn p p.slice code
  else
    s.setTransit t (some { t with
      pkt := { p with bad := some (p.bad.getD code), ended := true }, more := false, rest := [], restBufs := [] })

/-- The end of a frame taken early is bad (R135, R311): what is already on the wire leaves with an inverted FCS, counted
under cut; every other packet of the frame is dropped with the reason where it stands: at once where it waits, and on
its way through a run, a pass, the core or an engine when that is done with it (log 32). -/
def State.failCut (s : State) (id code cut : Nat) : State :=
  let s1 := s.ports.foldl (fun y x =>
    ((x.2.wire.filter (fun p => p.isOf id && !p.stomp)).foldl (fun z _ => z.countDrop (x.1 / 64) cut) y)) s
  let s1 := (s1.core.transit.filter (fun t => t.pkt.isOf id)).foldl (fun y t => y.failTransit code t) s1
  let whole := !s1.core.transit.any (fun t => t.early && t.pkt.isOf id)
  let s2 := { s1 with ports := s1.ports.map (fun (x : Nat × Port) => (x.1, { x.2 with
    wire := x.2.wire.map (fun (p : Pkt) => if p.isOf id then { p with stomp := true, ended := p.ended || whole } else p) })) }
  let s3 := (List.range 8).foldl (fun y sl => y.dropWaiting id code sl) s2
  let s4 := (s3.tm.queues.filter (fun x => x.2.pkts.any (fun p => p.isOf id))).foldl
    (fun y x => y.dropQueue id code x.1 x.2.pkts.length) s3
  let s5 := (s4.tm.voq.filter (fun x => x.2.pkts.any (fun p => p.isOf id))).foldl (fun y x => y.dropVoq id code x.1) s4
  ((s5.dropAtHub id code).mapPkts (fun (p : Pkt) =>
    if p.isOf id && !p.stomp && p.bad.isNone then { p with bad := some code, ended := true } else p)).releaseHand

/-- The rest of a frame of n bytes after its FCS was taken early joins its packet, with cells of its own; where one cannot be
had the packet is dropped, or stomped (R190). -/
def State.cutJoin (s : State) (port id n : Nat) (rest : List Byte) : State :=
  if s.allPkts.any (fun p => p.isOf id && !p.ended) = false then
    ((s.core.transit.filter (fun t => t.more && t.pkt.isOf id)).foldl (fun y t => y.failTransit 0 t) s).releaseHand
  else
    match s.rxCells port (n - 256) with
    | (s1, none) => s1.failCut id 0x40 0x40
    | (s1, some bufs) => (s1.extendPkt id rest bufs).releaseHand

/-- The plaintext of a decrypted frame that its packet has not yet (R311). -/
def IcvWait.left (w : IcvWait) : List Byte :=
  (bytesOf (macPlain w.sa (roundKeys (keyBytes w.sa w.key)) (natsOf w.frame) w.pn (tagLen w.frame)
    (secLen w.frame w.frame.length))).drop w.given

/-- The end of a frame taken early arrives (R135, R256). A frame that fails leaves a port whole, with an inverted FCS, if its
transmission has begun. A control frame is acted on if it is without error (R257). -/
def State.cutEnd (s : State) (port : Nat) (rest : List Byte) (err : RxErr) : State :=
  match s.rx.find? (fun x => x.1 == port) with
  | none => s
  | some (_, r) =>
    let s1 := { s with rx := s.rx.drop port }
    let len := r.got + rest.length + 4
    let code := s.rxCode port len err
    let s2 := s1.countRx port len code.isSome
    match r.ctl with
    | some d => if code.isSome then s2 else s2.pauseFrame port (d ++ rest)
    | none =>
      match s2.cipher.icv.find? (fun x => x.1 == r.pkt), code with
      | some (_, w), none => s2.setIcv { w with frame := w.frame ++ rest, ended := true }
      | some (_, w), some c =>
        let more := { w with frame := w.frame ++ rest }.left
        ((s2.dropIcv r.pkt).cutJoin port r.pkt (w.given + more.length + 4) more).failCut r.pkt c 0x05
      | none, none =>
        (match r.sa with
          | some i => s2.countSa (port / 64) i len
          | none => s2).cutJoin port r.pkt len rest
      | none, some c => (s2.cutJoin port r.pkt (min len (s.maxFrame port + 1)) rest).failCut r.pkt c 0x05

/-- The bytes of a frame on a line that Accession needs to take it early: 256 bytes of the frame, behind which a port that
decrypts holds back SecTAG and ICV (R134, R311). -/
def State.cutNeed (s : State) (port : Nat) (data : List Byte) : Nat :=
  if s.cipRx port 31 = false ∨ isPause data = true then 256
  else
    match s.macsecCheck port data 16379 with
    | .go _ _ tag _ => 272 + tag
    | _ => 256

/-- A frame comes to the receiver of a port: one of 260 bytes or more on a cut-through port is taken early (R134, R256, R257). -/
def State.frameIn (s : State) (port : Nat) (data : List Byte) (err : RxErr) (dt back : Word64) : State :=
  let n := s.cutNeed port data
  if s.cutPort port = true ∧ n ≤ data.length then (s.cutTake port (data.take n) dt back).cutEnd port (data.drop n) err
  else s.rxWhole port data err dt back

/-- FRAME_RECEIVE (R134, R256, R257): a frame arrives on a line, from its start to its end. -/
def execFrameReceive (port : Nat) (data : List Byte) (e : RxEnd) (dt back : Word64) (s : State) : Res :=
  if s.rxLine port = false ∨ s.rx.any (fun x => x.1 == port) = true then .next s
  else .next ((s.countFec port e).frameIn port data e.err dt back)

/-- Bytes of a PAUSE or PFC frame with its FCS (PRESUMED, the Ethernet standard; log 103). -/
def pauseLen : Nat := 64

/-- PAUSE_FRAME_RECEIVE (R262, Table 14.2): a good PAUSE or PFC frame from the line. -/
def execPauseFrameReceive (port : Nat) (pfc : Bool) (enables : BitVec 8) (times : List (BitVec 16)) (s : State) : Res :=
  if s.rxLine port then .next ((s.countRx port pauseLen false).pauseRx port pfc enables times) else .next s

/-- CUT_THROUGH_TAKE (R134): the first 256 bytes of a frame of 260 bytes or more have arrived. -/
def execCutThroughTake (port : Nat) (data : List Byte) (dt back : Word64) (s : State) : Res :=
  if s.rxLine port = false ∨ s.cutPort port = false ∨ data.length ≠ s.cutNeed port data ∨ s.rx.any (fun x => x.1 == port) = true
  then .next s
  else .next (s.cutTake port data dt back)

/-- FRAME_END_CUT (R135). -/
def execFrameEndCut (port : Nat) (rest : List Byte) (e : RxEnd) (s : State) : Res :=
  if s.rx.any (fun x => x.1 == port) = true then .next ((s.countFec port e).cutEnd port rest e.err) else .next s

/-! ### Recirculation (R150) -/

/-- A committed packet comes to the recirculation queue of its slice: limit, fit, stamp, parse. -/
def State.recircIn (s : State) (p : Pkt) : State :=
  let sl := p.slice
  let cnt := (slipByte p.slip 0x06).toNat
  let x := s.slice sl
  if cnt = s.cfgF (Reg.accRecirc sl) 2 0 then s.dropIn p sl 0x23
  else if sideSize < fifoSum x.recq + p.fifoBytes then s.dropIn p sl 0x22
  else
    let (o, s0) := s.fresh
    let r := s0.parse sl (s.cfgF (Reg.accRecirc sl) 23 16) p.data
    let flags := (slipByte p.slip 0x05).toNat
    let fl := (if p.ended then flags % 8 else flags) ||| 4
    let len := if p.ended then p.len else 16383
    let off := (r.slip >>> 128).extractLsb' 0 256
    let a := slipSet (setBits p.slip 383 128 off.toNat) 0x00 2 len
    let a := slipSet a 0x04 1 (r.cls.getD 0)
    let a := slipSet a 0x05 1 fl
    let a := slipSet a 0x06 1 (cnt + 1)
    let a := slipSet a 0x08 4 (s.stampNs s.eventDt)
    let a := slipSet a 0x0C 4 s.stampTick
    let p1 := { p with ord := o, slip := slipSet a 0x4C 1 0, extract := r.ext, stream := .recirc sl }
    let s1 := (s0.noteParse sl r).nextFree
    match r.cls with
    | none => s1.dropIn p1 sl 0x21
    | some _ => s1.setSlice sl { s1.slice sl with recq := (s1.slice sl).recq ++ [p1] }

/-! ### Injection (R153, R154) -/

/-- The fields of an inject header (Table 5.4). -/
structure Inject where
  version : Nat
  type    : Nat
  flags   : Nat
  tcdp    : Nat
  inPort  : Nat
  dest    : Nat
  queue   : Nat
  entry   : Nat
  start   : Nat
  tsId    : Nat
  sa      : Nat
  user    : List Byte
  slice   : Nat
  rsv     : Nat
  deriving DecidableEq, Repr

/-- Read an inject header. -/
def readInject (b : List Byte) : Inject :=
  let n := fun o k => beNat (slice0 b o k)
  { version := n 0 1, type := n 1 1, flags := n 2 1, tcdp := n 3 1, inPort := n 4 2, dest := n 6 2, queue := n 8 4,
    entry := n 12 1, start := n 13 1, tsId := n 14 2, sa := n 16 4, user := slice0 b 20 8, slice := n 28 1, rsv := n 29 3 }

/-- VERSION and TYPE are valid. -/
def Inject.known (h : Inject) : Bool := decide (h.version = 1) && (decide (h.type = 0x10) || decide (h.type = 0x11))

/-- The port field that names the slice concerned is in range. -/
def Inject.portOk (h : Inject) : Bool := if h.type = 0x10 then decide (h.dest < 512) else decide (h.inPort < 514)

/-- The slice concerned (R153). -/
def Inject.sliceOf (h : Inject) : Nat :=
  if h.type = 0x10 then h.dest / 64 else if h.inPort < 512 then h.inPort / 64 else h.slice % 8

/-- Nothing in the header is refused. EG_ENTRY from 64 to 254 is outside its range and taken as refused (DEDUCED,
log 33). -/
def Inject.ok (h : Inject) (n : Nat) : Bool :=
  h.known && h.portOk && decide (h.inPort < 514) && decide (h.flags < 8) && decide (h.slice < 8) && decide (h.rsv = 0) &&
  decide (h.tcdp < 32) && decide (h.sa / 2 ^ 18 % 2 ^ 13 = 0) &&
  (decide (h.entry < 64) || decide (h.entry = 0xFF)) &&
  (if h.type = 0x10 then decide (h.queue < 2 ^ 18) else decide (h.dest = 0) && decide (h.queue = 0)) &&
  decide (60 ≤ n) && decide (n ≤ 16379)

/-- Set bytes of the call slip from a list. -/
def slipBytes (slip : BitVec 1024) (o : Nat) (bs : List Byte) : BitVec 1024 := slipSet slip o bs.length (leNat bs)

/-- An inject frame: header and packet (R153, R154). A packet that is to enter the pipe is parsed before its fit is tested, so
that PARSE_LIMIT prevails over INJECT_FULL (DEDUCED, log 10). -/
def State.injectIn (s : State) (hp : Nat) (body : List Byte) (dt : Word64) : State :=
  let s0 := s.bump (Reg.hpRxInj hp) 1
  let h := readInject body
  let data := body.drop 32
  let sl := h.sliceOf
  if s.running = false then s0
  else if h.ok data.length = false then
    if h.known && h.portOk then (s0.countDrop sl 0x24).setEv (Reg.accEvents sl) 4
    else (s0.countDrop hubSite 0x24).setEv Reg.dcpEvents 5
  else
    let pool := s.cfgF (Reg.hpCfg hp) 19 16
    match s0.cellsFor pool (sl / 2) 4 16 (cellsOf data.length) with
    | (s1, none) => s1.countDrop sl 0x40
    | (s1, some bufs) =>
      let (id, s2) := s1.fresh
      let r := if h.type = 0x11 ∧ h.flags % 2 = 1 then s2.parse sl h.start data
        else { slip := slipBase, ext := 0, cls := some (if h.type = 0x11 then h.start % 64 else 0), limited := false }
      let stamped := decide (h.type = 0x11)
      let slip := buildSlip r.slip (data.length + 4) h.inPort (r.cls.getD 0) 2 0 h.tcdp
        (if stamped then s.stampNs dt else 0) (if stamped then s.stampTick else 0) pool
      let slip := slipBytes (slipSet slip 0x40 4 h.sa) 0x50 h.user
      let p := { Pkt.blank with
        id := id, ord := id, data := data, bufs := bufs, stream := .inject hp, rxPort := h.inPort, slice := sl,
        drain := s.dcp.drainNo,
        tsId := if bit (BitVec.ofNat 8 h.flags) 1 then some (BitVec.ofNat 16 h.tsId) else none
        oneStep := bit (BitVec.ofNat 8 h.flags) 2, admitted := stamped, extract := r.ext, slip := slip }
      if h.type = 0x10 then
        let q := slipSet (slipSet slip 0x30 4 (2 ^ 28 + h.dest * 2 ^ 18 + h.queue)) 0x4C 1 1
        let p1 := { p with slip := slipSet q 0x3E 1 (h.entry % 64), noRun := decide (h.entry = 0xFF) }
        (s2.storePkt p1).setSlice sl { s2.slice sl with arrived := (s2.slice sl).arrived ++ [p1] }
      else
        let s3 := (s2.noteParse sl r).storePkt p
        match r.cls with
        | none => s3.dropIn p sl 0x21
        | some _ =>
          let x := s3.slice sl
          if sideSize < fifoSum x.inj + p.fifoBytes then (s3.dropIn p sl 0x25).setEv (Reg.accEvents sl) 5
          else s3.setSlice sl { x with inj := x.inj ++ [p] }

/-- INJECT_RECEIVE (R153). -/
def execInjectReceive (hp : Fin 2) (body : List Byte) (dt : Word64) (s : State) : Res := .next (s.injectIn hp.val body dt)

/-! ### Slots (R45 to R48) -/

/-- The droop detectors are active in the tick that lies n ticks after this one (R378), as far as this tick knows. A window
that only the coming boundary opens is not yet known, so that runs are bound against U without the margin (DESIGN CHOICE,
log 80). -/
def State.droopIn (s : State) (n : Nat) : Bool :=
  (decide (3 ≤ s.boot.phase.code) && decide (s.boot.phase.code ≤ 7)) || s.testMode || s.boot.stop.isSome ||
  decide (n < s.power.droopLeft) || s.cfgB Reg.powCtl 30

/-- Core cycles of a tick at clock ratio K (R373). -/
def cyclesOf (k : Nat) : Nat := 16 * k

/-- U of the tick that lies n ticks after this one, at clock ratio K (R41). -/
def State.usable (s : State) (k n : Nat) : Nat :=
  cyclesOf k - 16 - (if s.droopIn n then s.cfgF Reg.almLimit 31 24 else 0)

/-- U of the next tick, with the droop margin where droopIn holds (log 80). -/
def State.nextU (s : State) : Nat := s.usable s.power.nextK 1

/-- G of a cluster's Scribes for the next tick (R48, R52). -/
def State.nextG (s : State) (k : Nat) : Nat :=
  let c := s.cluster k
  if c.state ≠ .running then 0
  else
    match c.ramp with
    | none => s.alm.next
    | some g => min g s.alm.next

/-- The entry of an index in a cluster, if it is of a kind: bit 0 of KIND ingress, bit 1 egress (R68, Table 3.4). -/
def State.entryOf (s : State) (k index : Nat) (egress : Bool) : Option Entry :=
  match (s.cluster k).prog with
  | none => none
  | some p =>
    p.entries.find? (fun e => decide (e.index = index) && decide (e.kind / (if egress then 2 else 1) % 2 = 1))

/-- Whether a running cluster has an entry of a kind; all of them have the same entry shape (R68, R89, R141). With no cluster
running there is none to say that it is absent, and packets wait (DEDUCED, log 7). -/
def State.entryExists (s : State) (index : Nat) (egress : Bool) : Bool :=
  let run := (List.range 32).filter (fun k => (s.cluster k).state == .running)
  decide (run = []) || run.any (fun k => (s.entryOf k index egress).isSome)

/-- Scribe n of a slice in the order of R144: cluster j of each logical Scribe i. -/
def scanCluster (sl n : Nat) : Nat := 4 * sl + n % 4
def scanScribe (n : Nat) : Nat := n / 4 % 64

/-- The threads of a Scribe that hold a binding for the next tick. -/
def State.boundOf (s : State) (k i : Nat) : List Thread :=
  ((scribeThreads k i).map s.threadN).filter (fun th => th.binding.isSome)

/-- Largest ingress WCET loaded in a slice (R47). -/
def State.maxIngress (s : State) (sl : Nat) : Nat :=
  ((List.range 4).flatMap (fun j => match (s.cluster (4 * sl + j)).prog with
    | none => []
    | some p => (p.entries.filter (fun e => decide (e.kind % 2 = 1))).map (fun e => e.wcet))).foldl max 0

/-- A Scribe has a free slot and free cycles for one more run of w cycles, keeping f slots and f × big cycles free. -/
def State.canBind (s : State) (k i w f big : Nat) : Bool :=
  let b := s.boundOf k i
  let g := s.nextG k
  !(s.cluster k).noPhys.contains i &&
  decide (b.length + 1 + f ≤ g) && decide ((b.map (fun th => th.bindW)).sum + w + f * big ≤ s.nextU)

/-- Bind a packet to the first thread of a Scribe without a binding (R60). -/
def State.bind (s : State) (k i : Nat) (p : Pkt) (e : Entry) (egress : Bool) : State :=
  match (scribeThreads k i).find? (fun n => (s.threadN n).binding.isNone) with
  | none => s
  | some n =>
    let th := s.threadN n
    s.setThreadN n { th with
      binding := some p
      bindEg := egress
      bindPc := e.start
      bindW := e.wcet
      state := if th.state = .free then .bound else th.state }

/-- The first Scribe after the last used that can take a run of an entry. -/
def State.findScribe (s : State) (sl last index : Nat) (egress : Bool) (f big : Nat) : Option (Nat × Entry) :=
  (List.range 256).findSome? (fun d =>
    let n := (last + 1 + d) % 256
    match s.entryOf (scanCluster sl n) index egress with
    | none => none
    | some e => if s.canBind (scanCluster sl n) (scanScribe n) e.wcet f big then some (n, e) else none)

/-! ### Placement (R144, R145) -/

/-- One input of Accession. -/
inductive Input where
  | recirc | inject | fifo
  deriving DecidableEq, Repr

/-- The packets of an input. -/
def Slice.input (x : Slice) : Input → List Pkt
  | .recirc => x.recq
  | .inject => x.inj
  | .fifo => x.fifo

/-- Replace the packets of an input. -/
def Slice.setInput (x : Slice) (i : Input) (l : List Pkt) : Slice :=
  match i with
  | .recirc => { x with recq := l }
  | .inject => { x with inj := l }
  | .fifo => { x with fifo := l }

/-- Place packets of one input until its head finds no Scribe (R145); n bounds the packets handled. -/
def State.placeInput (s : State) (sl : Nat) (i : Input) : Nat → State
  | 0 => s
  | n + 1 =>
    let x := s.slice sl
    match x.input i with
    | [] => s
    | p :: rest =>
      let cls := (slipByte p.slip 0x04).toNat % 64
      let s1 := s.setSlice sl (x.setInput i rest)
      if s.entryExists cls false = false then (s1.dropIn p sl 0x30).placeInput sl i n
      else if i = .recirc ∧ s.cfgF (Reg.accRecirc sl) 15 8 ≤ x.placed then s
      else
        match s.findScribe sl x.last cls false 0 0 with
        | none => s
        | some (m, e) =>
          let y := s1.slice sl
          let s2 := s1.setSlice sl { y with last := m, placed := if i = .recirc then y.placed + 1 else y.placed }
          (s2.bind (scanCluster sl m) (scanScribe m) p e false).placeInput sl i n

/-! ### The egress dispatcher (R47, R148) -/

/-- The Scribe that takes the egress run of a packet next, with its entry (R47, R144). -/
def State.egressScribe (s : State) (sl : Nat) (p : Pkt) : Option (Nat × Entry) :=
  s.findScribe sl (s.slice sl).lastEg p.egEntry true (s.cfgF Reg.almLimit 19 16) (s.maxIngress sl)

/-- Bind dequeued packets in order until one finds no Scribe. -/
def State.dispatch (s : State) (sl : Nat) : Nat → State
  | 0 => s
  | n + 1 =>
    let x := s.slice sl
    match x.egress with
    | [] => s
    | p :: rest =>
      let s1 := s.setSlice sl { x with egress := rest }
      match p.bad with
      | some code => (s1.dropIn p sl code).dispatch sl n
      | none =>
        if s.entryExists p.egEntry true = false then (s1.dropIn p sl 0x30).dispatch sl n
        else
          match s.egressScribe sl p with
          | none => s
          | some (m, e) =>
            let s2 := s1.setSlice sl { s1.slice sl with lastEg := m }
            (s2.bind (scanCluster sl m) (scanScribe m) p e true).dispatch sl n

/-- The egress dispatcher places its runs for a tick before Accession places its own (R47): once Accession has placed in this
tick, it places nothing more. -/
def State.egressTurn (s : State) (sl : Nat) : State :=
  if (s.slice sl).accDone then s else s.dispatch sl (s.slice sl).egress.length

/-- EGRESS_DISPATCH (R47, R148). -/
def execEgressDispatch (slice : Fin 8) (s : State) : Res := if s.flowing then .next (s.egressTurn slice.val) else .next s

/-! ### Accession's turn (R47, R144, R145) -/

/-- ACCESSION_PLACE (R144, R145): the egress dispatcher has its turn first (R47); then recirculated, injected and admitted
packets are placed, in that order; in DISABLING only packets already admitted (R408). -/
def execAccessionPlace (slice : Fin 8) (s : State) : Res :=
  let sl := slice.val
  if s.flowing = false then .next s
  else
    let s0 := s.egressTurn sl
    let s1 := s0.setSlice sl { s0.slice sl with accDone := true }
    let x := s1.slice sl
    let s2 := if s1.running then (s1.placeInput sl .recirc x.recq.length).placeInput sl .inject x.inj.length else s1
    .next ((s2.placeInput sl .fifo x.fifo.length).noteFifo sl).releaseHand

/-! ### Parse banks (R137) -/

/-- At a boundary at which BANK_SWITCH stands written the other bank becomes active, and the bit is cleared. -/
def State.applyBank (s : State) (sl : Nat) : State :=
  if s.cfgB (Reg.accCtl sl) 1 then
    let v := s.reg (Reg.accCtl sl)
    ((s.clrBit (Reg.accCtl sl) 1).setRegF (Reg.accCtl sl) 0 0 (1 - b2n (bit v 0))).setEv (Reg.accEvents sl) 0
  else s

/-- BANK_SWITCH (R137): the write of 1; the switch is due at the next boundary. -/
def execBankSwitch (slice : Fin 8) (s : State) : Res := .next (s.setEv (Reg.accCtl slice.val) 1)

end Sys2Proof.Machine
end

