-- ==== Sys2Proof/Machine/Directory.lean ====
section
/-! DEFINITION. The table directory of a wing pair: its fields, where its tables lie, and the checks of a word-0 write
(chapter 6, sections 1 and 2). -/

namespace Sys2Proof.Machine

/-- A directory entry: its eight words (Table 6.2). -/
abbrev DirEntry := List Word32

/-- Bits [hi:lo] of word w of an entry. -/
def dirF (e : DirEntry) (w hi lo : Nat) : Nat := bits (e.getD w 0) hi lo

/-- Bit n of word w of an entry. -/
def dirB (e : DirEntry) (w n : Nat) : Bool := bit (e.getD w 0) n

/-- VALID. -/
def dirValid (e : DirEntry) : Bool := dirB e 0 31
/-- REPL. -/
def dirRepl (e : DirEntry) : Bool := dirB e 0 30
/-- KIND: 0 EXACT, 1 LPM4, 2 LPM6, 3 LPM6_LONG, 4 TERNARY, 5 INDEXED, 6 STACKS. -/
def dirKind (e : DirEntry) : Nat := dirF e 0 29 27
/-- The key width k. -/
def dirKeyW (e : DirEntry) : Nat := dirF e 0 23 16 + 1
/-- The result width r. -/
def dirResW (e : DirEntry) : Nat := dirF e 0 14 8 + 1
/-- The entry size in bytes: EXACT 16, 32, 64; INDEXED 8, 16. -/
def dirEsize (e : DirEntry) : Nat := if dirKind e = 0 then 16 * 2 ^ dirF e 1 31 30 else 8 * 2 ^ dirF e 1 31 30
/-- LEARN_EN. -/
def dirLearn (e : DirEntry) : Bool := dirB e 1 29
/-- AGE_EN. -/
def dirAge (e : DirEntry) : Bool := dirB e 1 28
/-- NOTIFY. -/
def dirNotify (e : DirEntry) : Bool := dirB e 1 27
/-- BASE of EXACT and INDEXED. -/
def dirBase (e : DirEntry) : Nat := dirF e 1 19 0
/-- SIZE_LOG2 of EXACT. -/
def dirLog2 (e : DirEntry) : Nat := dirF e 2 4 0
/-- SALT. -/
def dirSalt (e : DirEntry) : Nat := (e.getD 3 0).toNat
/-- A longest-prefix kind. -/
def dirIsLpm (e : DirEntry) : Bool := decide (1 ≤ dirKind e) && decide (dirKind e ≤ 3)
/-- The 48-bit Stacks address of a STACKS table. -/
def dirAddr (e : DirEntry) : Nat := dirF e 6 15 0 * 2 ^ 32 + (e.getD 5 0).toNat
/-- RECORD_SIZE. -/
def dirRecord (e : DirEntry) : Nat := dirF e 4 6 0

/-- The number of lengths of a longest-prefix table: 32 or 64 (R166). -/
def lpmLengths (e : DirEntry) : Nat := if dirKind e = 1 then 32 else 64
/-- The first length of a longest-prefix table. -/
def lpmFirst (e : DirEntry) : Nat := if dirKind e = 3 then 65 else 1

/-- The live directory entry of a table of a pair, as lookups see it. -/
def State.dirLive (s : State) (pair t : Nat) : DirEntry := SMap.find [] s.dir (256 * pair + t)

/-- The entry as a word-0 write finds it: accepted changes included. -/
def State.dirView (s : State) (pair t : Nat) : DirEntry :=
  match s.dirNext.reverse.find? (fun x => x.1 == 256 * pair + t) with
  | some x => x.2
  | none => s.dirLive pair t

/-- Device memory address of a byte of a wing (R25). -/
def wingAddr (w byte : Nat) : Nat := 0x800000000000 + w * 0x100000000 + byte

/-- Device memory address of a unit of a wing. -/
def unitAddr (w u : Nat) : Nat := wingAddr w (64 * u)

/-- The wing that holds the auxiliary data of a longest-prefix table for a slice (R166). -/
def auxWing (e : DirEntry) (slice : Nat) : Nat :=
  if dirRepl e then slice / 2 * 2 + b2n (dirB e 4 31) else slice

/-- The length descriptor of index i (length first + i) in a wing (R166). -/
def State.lpmDesc (s : State) (e : DirEntry) (wing i : Nat) : Word32 :=
  BitVec.ofNat 32 (leNat (memReadN s.mem (unitAddr wing (dirF e 2 15 0) + 4 * i) 4))

/-- A length holds buckets: PRESENT = 1 and SIZE_LOG2 at least 1 (R166). -/
def descHolds (d : Word32) : Bool := bit d 31 && decide (bits d 30 26 ≠ 0)

/-! ### What a table occupies (R160) -/

/-- A run of units in one wing of a pair: parity of the wing, area (0 auxiliary, 1 table, 2 ternary bank), first unit
and number of units. -/
structure URange where
  wing  : Nat
  area  : Nat
  first : Nat
  count : Nat
  deriving DecidableEq, Repr

/-- Units of W ways of 2^n buckets in each wing (R162). -/
def wayUnits (repl : Bool) (ways n : Nat) : Nat := if repl then ways * 2 ^ (n - 1) else ways * 2 ^ n

/-- The buckets of every length that holds buckets, by the descriptors in a wing. -/
def State.lpmBuckets (s : State) (e : DirEntry) (auxW : Nat) (wings : List Nat) : List URange :=
  (List.range (lpmLengths e)).flatMap (fun i =>
    let d := s.lpmDesc e auxW i
    if descHolds d then wings.map (fun w => ⟨w, 1, bits d 19 0, wayUnits (dirRepl e) 2 (bits d 30 26)⟩) else [])

/-- The units a valid table of a pair holds (R160). -/
def State.dirRanges (s : State) (pair : Nat) (e : DirEntry) : List URange :=
  match dirKind e with
  | 0 => [0, 1].map (fun w => ⟨w, 1, dirBase e, wayUnits (dirRepl e) 4 (dirLog2 e)⟩)
  | 4 => [⟨0, 2, 0xF8000 + dirF e 2 31 16, dirF e 2 15 0⟩]
  | 5 =>
    let n := dirF e 2 23 0
    let E := dirEsize e
    if dirRepl e then
      [⟨0, 1, dirBase e, (((n + 1) / 2) * E + 63) / 64⟩, ⟨1, 1, dirBase e, ((n / 2) * E + 63) / 64⟩]
    else [0, 1].map (fun w => ⟨w, 1, dirBase e, (n * E + 63) / 64⟩)
  | 6 => []
  | 7 => []
  | _ =>
    let f := dirF e 4 28 24
    let aux := fun w => (⟨w, 0, dirF e 2 15 0, lpmLengths e * 4 / 64⟩ : URange) ::
      (if f = 0 then [] else [⟨w, 0, dirF e 4 15 0, 2 ^ (f - 9)⟩])
    if dirRepl e then
      let a := b2n (dirB e 4 31)
      aux a ++ s.lpmBuckets e (2 * pair + a) [0, 1]
    else aux 0 ++ aux 1 ++ s.lpmBuckets e (2 * pair) [0] ++ s.lpmBuckets e (2 * pair + 1) [1]

/-- Two runs share a unit. -/
def URange.meets (x y : URange) : Bool :=
  decide (x.wing = y.wing) && decide (0 < x.count) && decide (0 < y.count) && decide (x.first < y.first + y.count) && decide (y.first < x.first + x.count)

/-- A run lies inside its area (Table 6.1). -/
def URange.inArea (x : URange) : Bool :=
  let (lo, hi) := match x.area with
    | 0 => (0, 0x10000)
    | 1 => (0x10000, if x.wing = 0 then 0xF8000 else 0x100000)
    | _ => (0xF8000, 0x100000)
  decide (x.count = 0) || (decide (lo ≤ x.first) && decide (x.first + x.count ≤ hi))

/-- Word w of an entry has no bit outside a mask. -/
def dirOnly (e : DirEntry) (w : Nat) (mask : Word32) : Bool := decide (e.getD w 0 &&& ~~~mask = 0)

/-- The format of a valid entry, apart from LONG_TABLE (R158, R160, R163). The REPL bit of a STACKS table is ignored
(R172). -/
def dirFormat (e : DirEntry) : Bool :=
  let k := dirKeyW e
  let r := dirResW e
  dirOnly e 0 0xF8FF7F00 && dirOnly e 7 0 &&
  match dirKind e with
  | 0 =>
    dirOnly e 1 0xF80FFFFF && decide (dirF e 1 31 30 ≤ 2) && decide (2 + (k + 7) / 8 + (r + 7) / 8 ≤ dirEsize e) &&
    !(dirRepl e && decide (dirLog2 e = 0)) && dirOnly e 2 0x1F && dirOnly e 4 0 && dirOnly e 5 0 && dirOnly e 6 0
  | 4 =>
    decide (k ≤ 144) && decide (r = 24) && dirRepl e && dirOnly e 1 0 && decide (dirF e 2 31 16 ≤ 32767) &&
    decide (1 ≤ dirF e 2 15 0) && decide (dirF e 2 15 0 ≤ 32768) && dirOnly e 3 0 && dirOnly e 4 0 && dirOnly e 5 0 &&
    dirOnly e 6 0
  | 5 =>
    decide (k ≤ 24) && decide (dirF e 1 31 30 ≤ 1) && decide (r ≤ if dirF e 1 31 30 = 0 then 56 else 120) &&
    dirOnly e 1 0xC00FFFFF && dirOnly e 2 0x00FFFFFF && dirOnly e 3 0 && dirOnly e 4 0 && dirOnly e 5 0 && dirOnly e 6 0
  | 6 =>
    decide (k = 32) && decide (dirF e 0 14 8 = 0) && dirOnly e 1 0 && dirOnly e 3 0 && dirOnly e 4 0x8000007F &&
    [8, 16, 32, 64].contains (dirRecord e) && dirOnly e 6 0xFFFF
  | 7 => false
  | _ =>
    let f := dirF e 4 28 24
    decide (k = if dirKind e = 1 then 32 else 128) && decide (r = 24) && dirOnly e 1 0 && dirOnly e 2 0xFFFF && dirOnly e 4 0x9F00FFFF &&
    (decide (f = 0) || (decide (10 ≤ f) && decide (f ≤ 25))) && dirOnly e 5 0x80FFFFFF &&
    (if dirKind e = 2 then dirOnly e 6 0x800000FF else dirOnly e 6 0)

/-- A byte range of the Stacks lies in one region of a kind. -/
def State.inRegion (s : State) (kind a n : Nat) : Bool :=
  (List.range 32).any (fun r =>
    let base := bits (s.reg (Reg.circRegionA r)) 17 0 * regionUnit
    let size := bits (s.reg (Reg.circRegionB r)) 18 0 * regionUnit
    decide (bits (s.reg (Reg.circRegionA r)) 31 29 = kind) && decide (base ≤ a) && decide (a + n ≤ base + size) &&
    decide (size ≠ 0))

/-- LONG_TABLE names a valid LPM6_LONG table with the same REPL, where it is in use (R160). -/
def dirLongOk (view : Nat → DirEntry) (e : DirEntry) : Bool :=
  if dirKind e = 2 ∧ dirB e 6 31 = true then
    let l := view (dirF e 6 7 0)
    dirValid l && decide (dirKind l = 3) && decide (dirRepl l = dirRepl e)
  else true

/-- Valid entry e of a pair shares a unit with one of the other tables of a list (R160). -/
def State.dirOverlaps (s : State) (pair : Nat) (view : Nat → DirEntry) (others : List Nat) (e : DirEntry) : Bool :=
  let mine := s.dirRanges pair e
  others.any (fun o => dirValid (view o) && (s.dirRanges pair (view o)).any (fun y => mine.any (fun x => x.meets y)))

/-- The units of a valid entry run outside their area (R160). -/
def State.dirOutside (s : State) (pair : Nat) (e : DirEntry) : Bool := !(s.dirRanges pair e).all URange.inArea

/-- The format of a valid entry is refused (R160). -/
def dirMisformed (view : Nat → DirEntry) (e : DirEntry) : Bool := !dirFormat e || !dirLongOk view e

/-- A STACKS table lies outside the regions for cold tables, or its address is not a multiple of its records (R160). -/
def State.dirStray (s : State) (e : DirEntry) : Bool :=
  decide (dirKind e = 6) &&
  (!s.inRegion 4 (dirAddr e) ((e.getD 2 0).toNat * dirRecord e) || decide (dirAddr e % dirRecord e ≠ 0))

/-- The lowest reason for which R160 refuses valid entry e as table t of a pair, given how the other tables stand. -/
def State.dirCheck (s : State) (pair t : Nat) (view : Nat → DirEntry) (others : List Nat) (e : DirEntry) : Option Nat :=
  if s.dirOverlaps pair view (others.filter (fun o => decide (o ≠ t))) e then some 0x0201
  else if s.dirOutside pair e then some 0x0202
  else if dirMisformed view e then some 0x0203
  else if s.dirStray e then some 0x0204
  else none

/-- What a live table may change: LEARN_EN, AGE_EN, NOTIFY, DESC, word 4, word 5, LONG_VALID (R159). -/
def dirLiveMask (e : DirEntry) (w : Nat) : Word32 :=
  match w with
  | 1 => 0x38000000
  | 2 => if dirIsLpm e then 0xFFFF else 0
  | 4 => 0xFFFFFFFF
  | 5 => 0xFFFFFFFF
  | 6 => 0x80000000
  | _ => 0

/-- Entries old and new differ only where a live table may change. -/
def dirLiveOk (old new : DirEntry) : Bool :=
  (List.range 7).all (fun w => decide ((old.getD w 0 ^^^ new.getD w 0) &&& ~~~(dirLiveMask old w) = 0))

/-- The tables of a pair that have an entry. -/
def State.dirTables (s : State) (pair : Nat) : List Nat :=
  ((s.dir.map (fun x => x.1)) ++ (s.dirNext.map (fun x => x.1))).filterMap
    (fun k => if k / 256 = pair then some (k % 256) else none)

/-- The entry a word-0 write of v would make: word 0 and the staged words 1 to 7 (R159). -/
def State.dirStaged (s : State) (pair t : Nat) (v : Word32) : DirEntry :=
  v :: (List.range 7).map (fun w => s.reg (Reg.catDir pair t (w + 1)))

/-- Some other valid table names a LONG_TABLE that would be none any more (R160). -/
def dirOrphans (view : Nat → DirEntry) (t : Nat) (others : List Nat) : Bool :=
  others.any (fun o => decide (o ≠ t) && dirValid (view o) && !dirLongOk view (view o))

/-- A write of directory word 0 (R159, R160): taken for the next boundary, or refused with DIR_CHECK. The answer is the
reason; none where the write is taken. A table that a valid one names as LONG_TABLE is not retired. -/
def State.dirWrite0 (s : State) (pair t : Nat) (v : Word32) : State × Option Nat :=
  let e := s.dirStaged pair t v
  let old := s.dirView pair t
  let view := fun o => if o = t then e else s.dirView pair o
  let bad := if dirValid e then
      match s.dirCheck pair t view (s.dirTables pair) e with
      | some r => some r
      | none => if dirValid old && !dirLiveOk old e then some 0x0205 else none
    else if dirOrphans view t (s.dirTables pair) then some 0x0203
    else none
  match bad with
  | some r => (s.setReg (Reg.catDirResult pair) (BitVec.ofNat 32 (r * 65536 + t)), some r)
  | none =>
    (({ s with dirNext := s.dirNext ++ [(256 * pair + t, e)] }.setReg (Reg.catDir pair t 0) v).setReg
      (Reg.catDirResult pair) (BitVec.ofNat 32 t), none)

/-- At a boundary the accepted directory entries take effect together (R159). -/
def State.applyDir (s : State) : State :=
  s.dirNext.foldl (fun x p => { x with dir := SMap.set [] x.dir p.1 p.2 }) { s with dirNext := [] }

end Sys2Proof.Machine
end

