-- ==== Sys2Proof/Machine/Catalogue.lean ====
section
/-! DEFINITION. The Catalogue: lookups, posted updates, learning, aging, locks and repair (chapter 6; R415). -/

namespace Sys2Proof.Machine

/-! ### Units -/

/-- Bytes of a wing's unit, as a little-endian number (R163, R167, R170, R171). -/
def State.unitNat (s : State) (w u off n : Nat) : Nat := leNat (memReadN s.mem (unitAddr w u + off) n)

/-- A unit is without repair: its writes are discarded (R415). -/
def State.unitDead (s : State) (w u : Nat) : Bool := (s.wing w).dead.contains u

/-- A lookup that reads this unit yields an error (R415). -/
def State.unitErr (s : State) (w u : Nat) : Bool := s.unitDead w u || (s.wing w).bad.contains u

/-- A unit is locked (R182). -/
def State.unitLocked (s : State) (w u : Nat) : Bool := (s.wing w).locks.contains u

/-- Write bytes of a unit; a unit without repair discards them. -/
def State.unitPut (s : State) (w u off : Nat) (bs : List Byte) : State :=
  if s.unitDead w u then s else { s with mem := memWriteN s.mem (unitAddr w u + off) bs }

/-- Count in a wing's counter c (Table 6.5). -/
def State.catCount (s : State) (w c : Nat) : State := s.bump (Reg.catCnt w c) 1

/-! ### Hashing and placement (R161, R162) -/

/-- Bytes of a number of bits. -/
def byteLen (k : Nat) : Nat := (k + 7) / 8

/-- The way-i hash of an exact-match key. -/
def exactHash (e : DirEntry) (key i : Nat) : Nat :=
  (crc32 polyC (beBytes (byteLen (dirKeyW e)) key ++ [BitVec.ofNat 8 i] ++ beBytes 4 (dirSalt e))).toNat

/-- P_L as the number an entry's PREFIX field holds: 32, 64 or 128 bits by kind (R161, R167). -/
def lpmPrefix (e : DirEntry) (key L : Nat) : Nat :=
  let k := dirKeyW e
  let p := key / 2 ^ (k - L) * 2 ^ (k - L)
  if dirKind e = 2 then p / 2 ^ 64 else p

/-- Bytes of PREFIX. -/
def lpmBytes (e : DirEntry) : Nat := if dirKind e = 1 then 4 else if dirKind e = 2 then 8 else 16

/-- The length-L hash with a distinguishing byte: i for way i, 0x10 + j for filter hash j. -/
def lpmHash (e : DirEntry) (key L x : Nat) : Nat :=
  (crc32 polyC (beBytes (lpmBytes e) (lpmPrefix e key L) ++ [BitVec.ofNat 8 L, BitVec.ofNat 8 x] ++
    beBytes 4 (dirSalt e))).toNat

/-- Where bucket h mod 2^n of way i lies: wing and unit. -/
def bucketAt (repl : Bool) (slice base n i h : Nat) : Nat × Nat :=
  let b := h % 2 ^ n
  if repl then (slice / 2 * 2 + b % 2, base + i * 2 ^ (n - 1) + b / 2) else (slice, base + i * 2 ^ n + b)

/-- The candidate buckets of an exact-match key, ways ascending. -/
def exactBuckets (e : DirEntry) (slice key : Nat) : List (Nat × Nat) :=
  (List.range 4).map (fun i => bucketAt (dirRepl e) slice (dirBase e) (dirLog2 e) i (exactHash e key i))

/-! ### Entries -/

/-- Slots of a unit of an EXACT table. -/
def exactSlots (e : DirEntry) : Nat := 64 / dirEsize e

/-- Entry of a slot of an EXACT table. -/
def State.exactEntry (s : State) (e : DirEntry) (w u slot : Nat) : Nat :=
  s.unitNat w u (slot * dirEsize e) (dirEsize e)

/-- KEY of an EXACT entry (R163). -/
def exactKey (e : DirEntry) (x : Nat) : Nat := x / 2 ^ 16 % 2 ^ (8 * byteLen (dirKeyW e))

/-- RESULT of an EXACT entry (R163). -/
def exactRes (e : DirEntry) (x : Nat) : Nat := x / 2 ^ (16 + 8 * byteLen (dirKeyW e)) % 2 ^ dirResW e

/-- An EXACT entry with V = 1, S and H as given, A = 0 (R163). -/
def exactMake (e : DirEntry) (st : Bool) (key res : Nat) : Nat :=
  1 + 2 * b2n st + 4 + 2 ^ 16 * (key % 2 ^ dirKeyW e) + 2 ^ (16 + 8 * byteLen (dirKeyW e)) * (res % 2 ^ dirResW e)

/-- Bit n of an entry. -/
def entBit (x n : Nat) : Bool := decide (x / 2 ^ n % 2 = 1)

/-- Write an EXACT entry. -/
def State.exactPut (s : State) (e : DirEntry) (w u slot x : Nat) : State :=
  s.unitPut w u (slot * dirEsize e) (leBytes (dirEsize e) x)

/-- An EXACT entry with its H and A bits replaced (R163). -/
def setHA (x : Nat) (h a : Bool) : Nat := x - x % 16 + x % 4 + 4 * b2n h + 8 * b2n a

/-- The first slot that holds a key, lowest way then lowest slot (R164). -/
def State.exactFind (s : State) (e : DirEntry) (bs : List (Nat × Nat)) (key : Nat) : Option (Nat × Nat × Nat) :=
  (bs.flatMap (fun b => (List.range (exactSlots e)).map (fun sl => (b.1, b.2, sl)))).find? (fun x =>
    let n := s.exactEntry e x.1 x.2.1 x.2.2
    entBit n 0 && decide (exactKey e n = key))

/-! ### Lookups (R164, R168, R170, R171) -/

/-- A lookup that reads a set of units of which one is uncorrectable yields an error. -/
def State.anyErr (s : State) (bs : List (Nat × Nat)) : Bool := bs.any (fun b => s.unitErr b.1 b.2)

/-- LKX on an EXACT table: the outcome, and the machine with H set in the slot that hit. -/
def State.lookExact (s : State) (e : DirEntry) (t slice key : Nat) : State × LkOut :=
  let bs := exactBuckets e slice key
  if s.anyErr bs then (s, .err)
  else
    match s.exactFind e bs key with
    | none => (s, .miss)
    | some (w, u, sl) =>
      let x := s.exactEntry e w u sl
      let s1 := if s.unitLocked w u then s else s.exactPut e w u sl (setHA x true (entBit x 3))
      (s1, .hit (BitVec.ofNat 128 (exactRes e x)) (some ⟨w, 64 * u + sl * dirEsize e, t, key⟩))

/-- Wing and byte of entry x of an INDEXED table (R162). -/
def indexedAt (e : DirEntry) (slice x : Nat) : Nat × Nat :=
  if dirRepl e then (slice / 2 * 2 + x % 2, 64 * dirBase e + x / 2 * dirEsize e)
  else (slice, 64 * dirBase e + x * dirEsize e)

/-- LKX on an INDEXED table (R171). -/
def State.lookIndexed (s : State) (e : DirEntry) (t slice key : Nat) : LkOut :=
  if dirF e 2 23 0 ≤ key then .miss
  else
    let (w, byte) := indexedAt e slice key
    if s.unitErr w (byte / 64) then .err
    else
      let n := leNat (memReadN s.mem (wingAddr w byte) (dirEsize e))
      if entBit n 0 then .hit (BitVec.ofNat 128 (n / 2 ^ 8 % 2 ^ dirResW e)) (some ⟨w, byte, t, 0⟩) else .miss

/-- All four filter bits of (P_L, L) are 1, or the table has no filter (R168). -/
def State.lpmFilter (s : State) (e : DirEntry) (auxW key L : Nat) : Bool :=
  let f := dirF e 4 28 24
  decide (f = 0) ||
  (List.range 4).all (fun j =>
    let g := lpmHash e key L (0x10 + j) % 2 ^ f
    bit (memRead s.mem (unitAddr auxW (dirF e 4 15 0 + g / 512) + g % 512 / 8)) (g % 8))

/-- The candidate lengths of a key with their descriptors, longest first (R168). -/
def State.lpmCandidates (s : State) (e : DirEntry) (slice key : Nat) : List (Nat × Word32) :=
  let aux := auxWing e slice
  ((List.range (lpmLengths e)).reverse.map (fun i => (lpmFirst e + i, s.lpmDesc e aux i))).filter
    (fun c => descHolds c.2 && s.lpmFilter e aux key c.1)

/-- The two buckets of a candidate length. -/
def lpmBucketsOf (e : DirEntry) (slice key : Nat) (c : Nat × Word32) : List (Nat × Nat) :=
  [0, 1].map (fun i => bucketAt (dirRepl e) slice (bits c.2 19 0) (bits c.2 30 26) i (lpmHash e key c.1 i))

/-- Size of a longest-prefix entry in bytes (R167). -/
def lpmEsize (e : DirEntry) : Nat := if dirKind e = 1 then 8 else if dirKind e = 2 then 16 else 32

/-- PREFIX of a longest-prefix entry (R167). -/
def lpmEntPrefix (e : DirEntry) (n : Nat) : Nat :=
  if dirKind e = 1 then n / 2 ^ 32 else if dirKind e = 2 then n / 2 ^ 64 else n / 2 ^ 128

/-- The entry of one length that holds P_L: its result and location. -/
def State.lpmLength (s : State) (e : DirEntry) (t slice key : Nat) (c : Nat × Word32) : Option (Nat × Loc) :=
  let p := lpmPrefix e key c.1
  let E := lpmEsize e
  ((lpmBucketsOf e slice key c).flatMap (fun b =>
    (List.range (64 / E)).map (fun sl => (b.1, 64 * b.2 + sl * E)))).findSome? (fun x =>
      let n := leNat (memReadN s.mem (wingAddr x.1 x.2) E)
      if entBit n 0 && decide (lpmEntPrefix e n = p) then some (n / 2 ^ 8 % 2 ^ 24, ⟨x.1, x.2, t, p⟩) else none)

/-- The longest hit of one longest-prefix table; the flag says that an uncorrectable unit was read. -/
def State.lpmTable (s : State) (e : DirEntry) (t slice key : Nat) : Bool × Option (Nat × Loc) :=
  let cs := s.lpmCandidates e slice key
  (s.anyErr (cs.flatMap (lpmBucketsOf e slice key)), cs.findSome? (s.lpmLength e t slice key))

/-- LKP (R168): LONG_TABLE holds the greater lengths. R160 keeps a LONG_TABLE that is in use from being retired; in a directory where
one is, its words are still searched, whatever its VALID bit (DESIGN CHOICE, log 89). -/
def State.lookLpm (s : State) (e : DirEntry) (t slice key : Nat) : LkOut :=
  let lt := dirF e 6 7 0
  let (e1, h1) := if dirKind e = 2 ∧ dirB e 6 31 = true then s.lpmTable (s.dirLive (slice / 2) lt) lt slice key
    else (false, none)
  let (e2, h2) := s.lpmTable e t slice key
  if e1 || e2 then .err
  else
    match h1.or h2 with
    | some (r, loc) => .hit (BitVec.ofNat 128 r) (some loc)
    | none => if dirB e 5 31 then .hit (BitVec.ofNat 128 (dirF e 5 23 0)) none else .miss

/-- Byte of the even wing at which ternary entry i stands (R170). -/
def ternByte (i : Nat) : Nat := 64 * (0xF8000 + i)

/-- LKT (R170). -/
def State.lookTern (s : State) (e : DirEntry) (t slice key : Nat) : LkOut :=
  let w := slice / 2 * 2
  let first := dirF e 2 31 16
  let idx := (List.range (dirF e 2 15 0)).map (fun i => first + i)
  if idx.any (fun i => s.unitErr w (0xF8000 + i)) then .err
  else
    match idx.findSome? (fun i =>
      let n := leNat (memReadN s.mem (wingAddr w (ternByte i)) 40)
      let val := n / 2 ^ 32 % 2 ^ 144
      let mask := n / 2 ^ 176 % 2 ^ 144
      if entBit n 0 && decide ((key ^^^ val) &&& mask = 0) then some (n / 2 ^ 8 % 2 ^ 24, i, n / 2 ^ 32) else none) with
    | some (r, i, k) => .hit (BitVec.ofNat 128 r) (some ⟨w, ternByte i, t, k⟩)
    | none => .miss

/-- The words that issue a lookup. -/
inductive LkOp where
  | exact | lpm | tern
  deriving DecidableEq, Repr

/-- A lookup of a key in a table by a run of a slice (R123, R164): no table, a table of the Stacks or a table of
another kind yields an error. -/
def State.lookup (s : State) (op : LkOp) (slice t key : Nat) : State × LkOut :=
  let e := s.dirLive (slice / 2) t
  if dirValid e = false then (s, .err)
  else
    match op, dirKind e with
    | .exact, 0 => s.lookExact e t slice key
    | .exact, 5 => (s, s.lookIndexed e t slice key)
    | .lpm, 1 => (s, s.lookLpm e t slice key)
    | .lpm, 2 => (s, s.lookLpm e t slice key)
    | .lpm, 3 => (s, s.lookLpm e t slice key)
    | .tern, 4 => (s, s.lookTern e t slice key)
    | _, _ => (s, .err)

/-! ### Committed table writes (R125, R76, R183) -/

/-- Where the RESULT of an entry lies in it, in bytes, and its length (R163, R167, R170, R171). -/
def resPlace (e : DirEntry) : Nat × Nat :=
  match dirKind e with
  | 0 => (2 + byteLen (dirKeyW e), byteLen (dirResW e))
  | 5 => (1, dirEsize e - 1)
  | _ => (1, 3)

/-- The entry at a recorded location still has V = 1 and still holds the recorded key (R125). -/
def State.locHolds (s : State) (e : DirEntry) (loc : Loc) : Bool :=
  let a := wingAddr loc.wing loc.byte
  match dirKind e with
  | 0 =>
    let n := leNat (memReadN s.mem a (dirEsize e))
    entBit n 0 && decide (exactKey e n = loc.key)
  | 4 =>
    let n := leNat (memReadN s.mem a 40)
    entBit n 0 && decide (n / 2 ^ 32 = loc.key)
  | 5 => entBit (memRead s.mem a).toNat 0
  | 6 => false
  | 7 => false
  | _ =>
    let n := leNat (memReadN s.mem a (lpmEsize e))
    entBit n 0 && decide (lpmEntPrefix e n = loc.key)

/-- Apply a committed UPD (R125): locked, stale, or written and counted. One whose entry is both locked and stale counts as locked
(DESIGN CHOICE, log 86). -/
def State.applyUpd (s : State) (loc : Loc) (res : Nat) : State :=
  let pair := loc.wing / 2
  let e := s.dirLive pair loc.table
  let u := loc.byte / 64
  if s.unitLocked loc.wing u then s.catCount loc.wing 1
  else if dirValid e = false ∨ s.locHolds e loc = false then s.catCount loc.wing 2
  else
    let (o, n) := resPlace e
    (s.unitPut loc.wing u (loc.byte % 64 + o) (leBytes n (res % 2 ^ dirResW e))).addCtr (tableCtr pair loc.table 3) 1

/-! ### Learning (R174 to R179) -/

/-- A LEARN is accepted: a valid EXACT per-slice table with LEARN_EN (R174). -/
def learnOk (e : DirEntry) : Bool := dirValid e && decide (dirKind e = 0) && !dirRepl e && dirLearn e

/-- Apply a committed LEARN (R174, R175). -/
def State.applyLearn (s : State) (slice table key res : Nat) : State :=
  let w := s.wing slice
  if learnOk (s.dirLive (slice / 2) table) = false then s.catCount slice 10
  else if 4096 ≤ w.learnQ.length then (s.catCount slice 8).setEv (Reg.catEvents slice) 1
  else s.setWing slice { w with learnQ := w.learnQ ++ [⟨table, key, res, 0, s.now, s.dcp.drainNo⟩] }

/-- A notice of a wing (Table 13.4), or its loss counted (R179). -/
def State.catNotice (s : State) (type w : Nat) (dt : Word64) (table slot unit : Nat) (e : DirEntry)
    (key res old : Nat) : State :=
  let s1 := if 1024 ≤ s.dcp.notices.length then (s.catCount w 12).setEv (Reg.catEvents w) 3 else s
  let kb := beBytes (byteLen (dirKeyW e)) key
  s1.noticeAt type (nsOf (s.oAt dt)) ([BitVec.ofNat 8 w, BitVec.ofNat 8 table, BitVec.ofNat 8 slot, 0] ++
    beBytes 4 unit ++ kb ++ List.replicate (32 - kb.length) 0 ++ beBytes 16 res ++ beBytes 16 old)

/-- The same, for tables whose NOTIFY is 1. -/
def State.catNotify (s : State) (type w : Nat) (dt : Word64) (table slot unit : Nat) (e : DirEntry)
    (key res old : Nat) : State :=
  if dirNotify e then s.catNotice type w dt table slot unit e key res old else s

/-- A free slot of a unit of an EXACT table. -/
def State.freeSlot (s : State) (e : DirEntry) (w u : Nat) : Option Nat :=
  (List.range (exactSlots e)).find? (fun sl => !entBit (s.exactEntry e w u sl) 0)

/-- Where a learned key can go: into a free slot after some moves, nowhere, or not known because a unit is locked. A
place is the free unit and slot and the moves that lead to it, the last move first: each names the slot it empties. -/
inductive Place where
  | found (unit slot : Nat) (moves : List (Nat × Nat))
  | full
  | locked
  deriving DecidableEq, Repr

/-- A bucket reached by the displacement search, with the moves that lead to it, the last first. -/
abbrev SearchNode := Nat × List (Nat × Nat)

/-- Look at the buckets of one level in order: a locked one stops the search, one with a free slot ends it (R165). -/
def State.searchLevel (s : State) (e : DirEntry) (w : Nat) : List SearchNode → Option Place
  | [] => none
  | (u, p) :: rest =>
    if s.unitLocked w u then some .locked
    else
      match s.freeSlot e w u with
      | some sl => some (.found u sl p)
      | none => s.searchLevel e w rest

/-- The buckets one move beyond a full bucket: slots ascending, ways ascending, each bucket once. -/
def State.searchNext (s : State) (e : DirEntry) (w : Nat) (seen : List Nat) (frontier : List SearchNode) :
    List SearchNode :=
  (frontier.flatMap (fun nd => (List.range (exactSlots e)).flatMap (fun sl =>
    (exactBuckets e w (exactKey e (s.exactEntry e w nd.1 sl))).map (fun b => (b.2, (nd.1, sl) :: nd.2))))).foldl
    (fun acc nd => if seen.contains nd.1 || acc.any (fun x => x.1 == nd.1) then acc else acc ++ [nd]) []

/-- Breadth-first search of at most fuel further moves (R165). -/
def State.search (s : State) (e : DirEntry) (w : Nat) : Nat → List Nat → List SearchNode → Place
  | fuel, seen, frontier =>
    match s.searchLevel e w frontier with
    | some p => p
    | none =>
      match fuel with
      | 0 => .full
      | k + 1 =>
        let nx := s.searchNext e w (seen ++ frontier.map (fun x => x.1)) frontier
        if nx = [] then .full else s.search e w k (seen ++ frontier.map (fun x => x.1)) nx

/-- Carry out the moves, the last first, each with H := 1 and A := 0; answers the slot left free (R165, R176). -/
def State.doMoves (s : State) (e : DirEntry) (w : Nat) : Nat → Nat → List (Nat × Nat) → State × Nat × Nat
  | u, sl, [] => (s, u, sl)
  | u, sl, (u', sl') :: rest =>
    (s.exactPut e w u sl (setHA (s.exactEntry e w u' sl') true false)).doMoves e w u' sl' rest

/-- Buckets without repetition, in order. -/
def dedupNat (l : List Nat) : List Nat := l.foldl (fun acc x => if acc.contains x then acc else acc ++ [x]) []

/-- An entry is frozen (R177). -/
def State.isFrozen (s : State) (w table key : Nat) : Bool :=
  (s.wing w).frozen.any (fun r => r.table == table && r.key == key && decide (s.now < r.tick))

/-- The record of a move; the answer says whether the move freezes its entry (R177). -/
def State.noteMove (s : State) (w table key : Nat) : State × Bool :=
  let lim := s.cfgF (Reg.catFlap w) 27 24
  let win := s.cfgF (Reg.catFlap w) 15 0 * 1024
  let x := s.wing w
  let mine := fun (r : MoveRec) => r.table == table && r.key == key
  if lim = 0 then (s, false)
  else
    let n := match x.moves.find? mine with
      | some r => if s.now < r.tick + win then (r.tick, r.count + 1) else (s.now, 1)
      | none => (s.now, 1)
    let rest := x.moves.filter (fun r => !mine r)
    if lim ≤ n.2 then
      (s.setWing w { x with moves := rest,
                            frozen := x.frozen ++ [⟨table, key, s.now + s.cfgF (Reg.catFreeze w) 15 0 * 1024, 0⟩] }, true)
    else
      let keep := if n.2 = 1 then rest.drop (rest.length - 511) ++ [⟨table, key, n.1, n.2⟩]
        else x.moves.map (fun r => if mine r then ⟨table, key, n.1, n.2⟩ else r)
      (s.setWing w { x with moves := keep }, false)

/-- The outcome of handling a learn request: done, or held back by a locked unit. -/
inductive LearnRes where
  | done | blocked
  deriving DecidableEq, Repr

/-- Handle a learn request of wing w (Table 6.3). -/
def State.handleLearn (s : State) (w : Nat) (r : Learn) (dt : Word64) : State × LearnRes :=
  let e := s.dirLive (w / 2) r.table
  if learnOk e = false then (s.catCount w 10, .done)
  else
    let bs := exactBuckets e w r.key
    if bs.any (fun b => s.unitLocked b.1 b.2) then (s, .blocked)
    else
      match s.exactFind e bs r.key with
      | some (_, u, sl) =>
        let x := s.exactEntry e w u sl
        let old := exactRes e x
        if old = r.res then (s.exactPut e w u sl (setHA x true false), .done)
        else if entBit x 1 then (s.catCount w 5, .done)
        else if s.isFrozen w r.table r.key then (s.catCount w 6, .done)
        else
          let s1 := (s.exactPut e w u sl (exactMake e false r.key r.res)).catCount w 4
          let s2 := s1.catNotify 0x0002 w dt r.table sl u e r.key r.res old
          let (s3, fz) := s2.noteMove w r.table r.key
          (if fz then
            ((s3.catCount w 13).setEv (Reg.catEvents w) 2).catNotice 0x0004 w dt r.table sl u e r.key r.res old
           else s3, .done)
      | none =>
        match s.search e w 8 [] ((dedupNat (bs.map (fun b => b.2))).map (fun u => (u, []))) with
        | .locked => (s, .blocked)
        | .full => (s.catCount w 7, .done)
        | .found u sl moves =>
          let (s1, u', sl') := s.doMoves e w u sl moves
          let s2 := (s1.exactPut e w u' sl' (exactMake e false r.key r.res)).catCount w 3
          (s2.catNotify 0x0001 w dt r.table sl' u' e r.key r.res 0, .done)

/-- Two requests for one key. -/
def Learn.same (a b : Learn) : Bool := a.table == b.table && a.key == b.key

/-- Requests behind one that has left the retry list wait for the next tick to begin their own retries (R178). -/
def releaseHeld (l : List Learn) (r : Learn) (now : Nat) : List Learn :=
  l.map (fun x => if x.same r then { x with tick := now } else x)

/-- The place in the retry list of the first request to be attempted in this tick: not yet attempted in it, not behind
an earlier request for its key, and with fewer than eight failures (R175, R178). -/
def retryPick (l : List Learn) (now : Nat) : Option Nat :=
  (List.range l.length).find? (fun i =>
    match l[i]? with
    | none => false
    | some r => decide (r.tick < now) && decide (r.fails < 8) && !(l.take i).any (fun x => x.same r))

/-- A blocked request joins the retry list, or is discarded as LEARN_LOCKED where it is full (R178). -/
def State.joinRetry (s : State) (w : Nat) (r : Learn) : State :=
  let x := s.wing w
  if 64 ≤ x.retry.length then (s.catCount w 9).setEv (Reg.catEvents w) 0
  else s.setWing w { x with retry := x.retry ++ [{ r with fails := 0, tick := s.now }] }

/-- LEARN_ENGINE_ATTEMPT (R175, R176, R178): the next attempt of wing w in this tick. With the 64 attempts made, or with
nothing to attempt, nothing happens. -/
def execLearnEngineAttempt (wing : Fin 8) (dt : Word64) (s : State) : Res :=
  let w := wing.val
  let x := s.wing w
  if 64 ≤ x.attempts then .next s
  else
    let s0 := s.setWing w { x with attempts := x.attempts + 1 }
    match (retryPick x.retry s.now).bind (fun i => (x.retry[i]?).map (fun r => (i, r))) with
    | some (i, r) =>
      match s0.handleLearn w r dt with
      | (s1, .done) =>
        let y := s1.wing w
        .next (s1.setWing w { y with retry := releaseHeld (y.retry.eraseIdx i) r s.now })
      | (s1, .blocked) =>
        let y := s1.wing w
        .next (s1.setWing w { y with retry := y.retry.set i { r with fails := r.fails + 1, tick := s.now } })
    | none =>
      match x.learnQ with
      | [] => .next s
      | r :: q =>
        let s1 := s0.setWing w { (s0.wing w) with learnQ := q }
        if x.retry.any (fun y => y.same r) then .next (s1.joinRetry w r)
        else
          match s1.handleLearn w r dt with
          | (s2, .done) => .next s2
          | (s2, .blocked) => .next (s2.joinRetry w r)

/-- LEARN_LOCKED (R178): the first request of the retry list with eight failures is discarded. -/
def execLearnLocked (wing : Fin 8) (s : State) : Res :=
  let w := wing.val
  let x := s.wing w
  match x.retry.find? (fun r => decide (8 ≤ r.fails)) with
  | none => .next s
  | some r =>
    .next (((s.setWing w { x with retry := releaseHeld (x.retry.erase r) r s.now }).catCount w 9).setEv
      (Reg.catEvents w) 0)

/-- FREEZE_END (R177): freezes whose time has run end without notice. -/
def execFreezeEnd (wing : Fin 8) (s : State) : Res :=
  let x := s.wing wing.val
  .next (s.setWing wing.val { x with frozen := x.frozen.filter (fun r => decide (s.now < r.tick)) })

/-! ### Aging (R180) -/

/-- The EXACT tables of a wing's pair with the range of units each has in the wing. -/
def State.exactRanges (s : State) (w : Nat) : List (Nat × DirEntry × URange) :=
  ((s.dir.map (fun x => x.1)).filter (fun k => k / 256 == w / 2)).flatMap (fun k =>
    let e := s.dirLive (w / 2) (k % 256)
    if dirValid e && decide (dirKind e = 0) then
      ((s.dirRanges (w / 2) e).filter (fun r => r.wing == w % 2)).map (fun r => (k % 256, e, r))
    else [])

/-- The EXACT table that a unit of a wing belongs to. -/
def State.exactOwner (s : State) (w u : Nat) : Option (Nat × DirEntry) :=
  ((s.exactRanges w).find? (fun x => decide (x.2.2.first ≤ u) && decide (u < x.2.2.first + x.2.2.count))).map
    (fun x => (x.1, x.2.1))

/-- The next unit the sweeper visits, from a given unit upward. -/
def State.sweepNext (s : State) (w from' : Nat) : Option Nat :=
  (((s.exactRanges w).filter (fun x => dirAge x.2.1)).filterMap (fun x =>
    let r := x.2.2
    if from' < r.first + r.count then some (max from' r.first) else none)).min?

/-- Units that the sweeper visits in a sweep below a given unit. -/
def State.sweepCount (s : State) (w below : Nat) : Nat :=
  (((s.exactRanges w).filter (fun x => dirAge x.2.1)).map (fun x => min x.2.2.count (below - x.2.2.first))).sum

/-- The tick before which a unit is not visited: the visits are spread evenly over the sweep (R180; how, is a DESIGN CHOICE, log
100). -/
def State.sweepDue (s : State) (w period unit : Nat) : Nat :=
  (s.wing w).sweepTick + period * s.sweepCount w unit / max 1 (s.sweepCount w (2 ^ 20))

/-- At a boundary a write of SWEEP_PERIOD restarts the sweep from the first unit; a sweep whose remaining tables have been retired
is over (R180). -/
def State.sweepEdge (s : State) (w : Nat) : State :=
  let x := s.wing w
  let period := s.cfgF (Reg.catAge w) 15 0 * 65536
  if x.sweepNew then s.setWing w { x with sweepNew := false, sweepAt := 0, sweepLate := false, sweepTick := s.now }
  else if period ≠ 0 ∧ s.sweepNext w x.sweepAt = none then
    s.setWing w { x with
      sweepAt := 0, sweepLate := false, sweepTick := max s.now (if x.sweepAt = 0 then x.sweepTick else x.sweepTick + period) }
  else s

/-- One slot under the sweeper. -/
def State.sweepSlot (s : State) (w u t : Nat) (e : DirEntry) (dt : Word64) (sl : Nat) : State :=
  let x := s.exactEntry e w u sl
  if entBit x 0 = false ∨ entBit x 1 = true then s
  else if entBit x 2 then s.exactPut e w u sl (setHA x false false)
  else if entBit x 3 = false then s.exactPut e w u sl (setHA x false true)
  else
    ((s.exactPut e w u sl (x - 1)).catCount w 11).catNotify 0x0003 w dt t sl u e (exactKey e x) (exactRes e x) 0

/-- SWEEP_VISIT (R180): the sweeper visits its next unit; a locked one is skipped for this sweep. After the last unit
the next sweep begins, one period after this one began or at once when it is late. -/
def execSweepVisit (wing : Fin 8) (unit : Nat) (dt : Word64) (s : State) : Res :=
  let w := wing.val
  let x := s.wing w
  let period := s.cfgF (Reg.catAge w) 15 0 * 65536
  if period = 0 ∨ s.sweepNext w x.sweepAt ≠ some unit ∨ s.now < s.sweepDue w period unit then .next s
  else
    let s1 := match s.exactOwner w unit with
      | some (t, e) =>
        if s.unitLocked w unit then s else (List.range (exactSlots e)).foldl (fun y sl => y.sweepSlot w unit t e dt sl) s
      | none => s
    let y := s1.wing w
    if s.sweepNext w (unit + 1) = none then
      .next (s1.setWing w { y with sweepAt := 0, sweepLate := false, sweepTick := max s.now (x.sweepTick + period) })
    else .next (s1.setWing w { y with sweepAt := unit + 1 })

/-- SWEEP_LATE (R180): the current sweep has overrun its period. -/
def execSweepLate (wing : Fin 8) (s : State) : Res :=
  let w := wing.val
  let x := s.wing w
  let period := s.cfgF (Reg.catAge w) 15 0 * 65536
  if period = 0 ∨ s.now < x.sweepTick + period ∨ x.sweepLate = true ∨ s.sweepNext w x.sweepAt = none then .next s
  else .next ((s.setWing w { x with sweepLate := true }).setEv (Reg.catEvents w) 4)

/-! ### Locks (R182) and repair (R415) -/

/-- H set in every valid EXACT entry of a unit. -/
def State.setHits (s : State) (w u : Nat) : State :=
  match s.exactOwner w u with
  | none => s
  | some (_, e) =>
    (List.range (exactSlots e)).foldl (fun y sl =>
      let x := y.exactEntry e w u sl
      if entBit x 0 then y.exactPut e w u sl (setHA x true (entBit x 3)) else y) s

/-- A unit that can be locked: of a table area or of the ternary bank (R182). -/
def lockable (u : Nat) : Bool := decide (0x10000 ≤ u) && decide (u < 0x100000)

/-- Lock a unit. -/
def State.lockUnit (s : State) (w u : Nat) : State :=
  let x := s.wing w
  if lockable u && !x.locks.contains u then s.setWing w { x with locks := x.locks ++ [u] } else s

/-- Unlock a unit, setting H in its entries; unlocking an unlocked unit changes nothing. -/
def State.unlockUnit (s : State) (w u : Nat) : State :=
  if (s.wing w).locks.contains u then
    let s1 := s.setHits w u
    let x := s1.wing w
    s1.setWing w { x with locks := x.locks.filter (fun y => y != u) }
  else s

/-- UNLOCK_ALL (R182): the write of 1; it acts at the next boundary. -/
def execUnlockAll (wing : Fin 8) (s : State) : Res := .next (s.setEv (Reg.catCtl wing.val) 0)

/-- At a boundary at which UNLOCK_ALL stands written it clears every lock of the wing and its own bit (R182). -/
def State.applyUnlockAll (s : State) (w : Nat) : State :=
  if s.cfgB (Reg.catCtl w) 0 then
    let s1 := (s.wing w).locks.foldl (fun y u => y.setHits w u) s
    (s1.setWing w { s1.wing w with locks := [] }).clrBit (Reg.catCtl w) 0
  else s

/-- An uncorrectable unit is found (R415): a unit with a repair unit left is remapped at the next boundary, one without
stays in error and holds zeros. -/
def State.unitUecc (s : State) (w u : Nat) : State :=
  let x := s.wing w
  let ticks := recentTicks x.ueccTick s.now (2 ^ 20)
  let s1 := s.bump (Reg.vigWingEcc w 1) 1
  let s2 :=
    if x.repaired + x.bad.length < 256 then
      (s1.setWing w { x with bad := x.bad ++ [u], ueccTick := ticks }).vigil' 0x0021 (2 ^ 20 * w + u)
    else
      ({ s1 with mem := memWriteN s1.mem (unitAddr w u) (List.replicate 64 0) }.setWing w
        { x with dead := x.dead ++ [u], ueccTick := ticks }).vigil' 0x0022 (2 ^ 20 * w + u)
  s2.eccRepeat ticks w

/-- CAT_REPAIR (R412, R415). An error that SECDED corrects is counted; the word is written back as it was. A unit already found, or
without repair, is not found again. -/
def execCatRepair (wing : Fin 8) (e : UnitError) (s : State) : Res :=
  if 2 ^ 20 ≤ e.unit ∨ s.unitErr wing.val e.unit = true then .next s
  else if e.corrected then .next (s.bump (Reg.vigWingEcc wing.val 0) 1)
  else .next (s.unitUecc wing.val e.unit)

/-- At a boundary each unit found uncorrectable is mapped onto a repair unit that holds zeros (R415). -/
def State.applyRepair (s : State) (w : Nat) : State :=
  let x := s.wing w
  if x.bad = [] then s
  else
    x.bad.foldl (fun y u => { y with mem := memWriteN y.mem (unitAddr w u) (List.replicate 64 0) })
      (s.setWing w { x with bad := [], repaired := x.repaired + x.bad.length })

/-- CAT_DIR_WORD0_WRITE (R159, R160). -/
def execCatDirWord0Write (pair : Fin 4) (table : BitVec 8) (v : Word32) (s : State) : Res :=
  .next (s.dirWrite0 pair.val table.toNat v).1

end Sys2Proof.Machine
end

