-- ==== Sys2Proof/Machine/Issue.lean ====
section
/-! DEFINITION. The issue of a Dinum word: its budget, its gate and the advance of the program counter (R61, R69, R103,
R106, R127, R128). -/

namespace Sys2Proof.Machine

/-- What becomes of a word that a thread is about to issue. -/
inductive Issue where
  /-- The word is none that a program store can hold (R106, R113). -/
  | refused
  /-- The thread does not issue: it is not the READY thread whose turn it is, or its Scribe is halted or absent. -/
  | idle
  /-- The word would be beyond the entry's declared WCET (R69). -/
  | budget
  /-- The word or its nanoword fails its parity (R97): where it stands. -/
  | parity (key : Nat)
  /-- The word is gated false: it uses its issue cycle and does nothing else (R106). -/
  | skipped (th : Thread)
  /-- The word acts. -/
  | taken (th : Thread)
  deriving DecidableEq, Repr

/-- Words whose condition chooses between two outcomes and does not gate them, and LOOP, whose gated form continues
after its body (R106, R128). -/
def ungated (nw : BitVec 12) : Bool := nw == 0x00D || nw == 0x301 || nw == 0x302

/-- The thread after the word at its program counter has issued: the next word, or the first word of a loop body whose
last word this was and which has passes left (R128). -/
def Thread.stepped (th : Thread) : Thread :=
  match th.loop with
  | none => { th with issued := th.issued + 1, pc := th.pc + 1 }
  | some lp =>
    if th.pc + 1 = lp.after then
      if lp.left = 0 then { th with issued := th.issued + 1, pc := th.pc + 1, loop := none }
      else { th with issued := th.issued + 1, pc := lp.first, loop := some { lp with left := lp.left - 1 } }
    else { th with issued := th.issued + 1, pc := th.pc + 1 }

/-- The issue of a word by a thread. A word beyond the budget is not fetched (DESIGN CHOICE, log 98). -/
def State.issue (s : State) (t : Tid) (w : DWord) : Issue :=
  let th := s.thread t
  if w.ok = false then .refused
  else if s.canIssue t = false then .idle
  else if th.wcet ≤ th.issued then .budget
  else match s.fetchBad t with
    | some key => .parity key
    | none => if ungated w.nw || predHolds th w.pred then .taken th.stepped else .skipped th.stepped

/-- A word issues, gated true or false: it is the last one that its Scribe issued (R61), and the cluster's count for the energy
estimate grows (R391). -/
def State.noteIssue (s : State) (t : Tid) : State :=
  { s with
    issuer := SMap.set 0 s.issuer (scribeIdx t.cluster.val t.scribe.val) (t.thread.val + 1)
    power := { s.power with
      words := SMap.set 0 s.power.words t.cluster.val (SMap.find 0 s.power.words t.cluster.val + 1) } }

/-- Issue a word whose effect is f. -/
def runWord (t : Tid) (w : DWord) (s : State) (f : State → Thread → State × Thread) : Res :=
  match s.issue t w with
  | .refused => .refused (.badWord w.nw.toNat)
  | .idle => .next s
  | .budget => .next (s.machineCheck t none)
  | .parity key => .next (s.machineCheck t (some key))
  | .skipped th => .next ((s.noteIssue t).setThread t th)
  | .taken th => .next (((f s th).1.noteIssue t).setThread t (f s th).2)

/-- Issue a word that changes its thread only. -/
def runLocal (t : Tid) (w : DWord) (s : State) (f : Thread → Thread) : Res := runWord t w s (fun x th => (x, f th))

/-- Continue at the word d beyond the one at address pc; leaving a loop body ends the loop (R127, R128). -/
def Thread.branch (th : Thread) (pc : Nat) (lp : Option Loop) (d : BitVec 12) : Thread :=
  let target := pc + d.toNat
  { th with
    pc := target
    loop := match lp with
      | none => none
      | some l => if l.after = target then none else some l }

/-- Append a commit-buffer entry (R72). -/
def Thread.append (th : Thread) (e : CEntry) : Thread := { th with buf := th.buf ++ [e] }

/-- Retire a run with a fate (R67): it commits behind the runs that retired before it (R74). -/
def retireWith (f : Fate) (s : State) (th : Thread) : State × Thread :=
  ({ s with retired := s.retired + 1 },
   { th with state := .retired, order := s.retired, buf := th.buf ++ [.fate f], loop := none })

end Sys2Proof.Machine
end

