-- ==== Sys2Proof/Machine/Meter.lean ====
section
/-! DEFINITION. Meters (R78, R131, R240, Table 8.7). Buckets hold 1/6,250 byte, what 8 kb/s give in one tick. -/

namespace Sys2Proof.Machine

/-- Word w of meter m of a slice. -/
def State.meterWord (s : State) (slice m w : Nat) : Word32 := s.cfg (Reg.tmMeter slice m w)

/-- Size of the committed bucket. -/
def State.meterC (s : State) (slice m : Nat) : Int := bits (s.meterWord slice m 2) 31 16 * (64 * 6250)

/-- Size of the excess or peak bucket. -/
def State.meterP (s : State) (slice m : Nat) : Int := bits (s.meterWord slice m 2) 15 0 * (64 * 6250)

/-- The buckets of a meter. -/
def State.meterAt (s : State) (slice m : Nat) : Bucket := SMap.find ⟨0, 0⟩ s.tm.meters (16384 * slice + m)

/-- Replace the buckets of a meter. -/
def State.setMeter (s : State) (slice m : Nat) (b : Bucket) : State :=
  { s with tm := { s.tm with meters := SMap.set ⟨0, 0⟩ s.tm.meters (16384 * slice + m) b } }

/-- Enough tokens in a bucket of a given size; a size of 0 never conforms (R240). -/
def conforms (size have' need : Int) : Bool := decide (size ≠ 0) && decide (need ≤ have')

/-- The colour of n bytes against a meter (0 green, 1 yellow, 2 red) and what it takes from the two buckets: the markers
of RFC 2697 and RFC 2698. PRESUMED: their tests and debits are taken from the RFCs (log 21). -/
def State.meterColour (s : State) (slice m n pre : Nat) : Nat × Nat × Nat :=
  let w := s.meterWord slice m 0
  let b := s.meterAt slice m
  let need : Int := n * 6250
  let okC := conforms (s.meterC slice m) b.c need
  let okP := conforms (s.meterP slice m) b.p need
  let pre' := if bit w 30 then pre else 0
  if bit w 31 then
    if pre' = 2 ∨ okP = false then (2, 0, 0)
    else if pre' = 1 ∨ okC = false then (1, 0, n)
    else (0, n, n)
  else
    if pre' = 0 ∧ okC = true then (0, n, 0)
    else if pre' ≤ 1 ∧ okP = true then (1, 0, n)
    else (2, 0, 0)

/-- A committed debit: no bucket goes below zero (R78). -/
def State.meterDebit (s : State) (slice m c p : Nat) : State :=
  let b := s.meterAt slice m
  s.setMeter slice m ⟨max 0 (b.c - c * 6250), max 0 (b.p - p * 6250)⟩

/-- Refill at a tick boundary: RFC 2697 passes what the committed bucket cannot hold to the excess bucket; RFC 2698
fills each bucket at its own rate. PRESUMED (log 21). -/
def State.meterRefill (s : State) (slice m : Nat) : Bucket :=
  let b := s.meterAt slice m
  let cir : Int := bits (s.meterWord slice m 0) 27 0
  let pir : Int := bits (s.meterWord slice m 1) 27 0
  let C := s.meterC slice m
  let P := s.meterP slice m
  if bit (s.meterWord slice m 0) 31 then ⟨min C (b.c + cir), min P (b.p + pir)⟩
  else ⟨min C (b.c + cir), min P (b.p + max 0 (b.c + cir - C))⟩

/-- The meters that have a configuration: those of which some word differs from zero. -/
def meterKeys (regs : SMap Word32) : List (Nat × Nat) :=
  (List.range 8).flatMap (fun sl =>
    (regs.filter (fun x => decide (Reg.tmMeter sl 0 0 ≤ x.1) && decide (x.1 < Reg.tmMeter sl 16384 0))).map
      (fun x => (sl, (x.1 - Reg.tmMeter sl 0 0) / 16)))

/-- Refill every configured meter. -/
def State.refillMeters (s : State) : State :=
  (meterKeys s.dp).eraseDups.foldl (fun x k => x.setMeter k.1 k.2 (x.meterRefill k.1 k.2)) s

/-- A write of a meter has taken effect: its buckets are full (R240). -/
def State.meterFull (s : State) (slice m : Nat) : State := s.setMeter slice m ⟨s.meterC slice m, s.meterP slice m⟩

end Sys2Proof.Machine
end

