-- ==== Sys2Proof/Machine/Commit.lean ====
section
/-! DEFINITION. Commit: the buffered entries of a retired run in program order, its fate last (R71 to R79, R120, R129, R130,
R146 to R148, R150). -/

namespace Sys2Proof.Machine

/-- The packet of a run with its frame and call slip as the run left them (R65, R120). -/
def Thread.frame (th : Thread) : Option Pkt :=
  th.pkt.map (fun p => { p with data := th.win ++ th.tail, slip := th.slip })

/-- The class a packet's added cells are recorded under: INGRESS, HOST, REPLICATION or MIRROR (Tables 7.3 and 7.4). -/
def Pkt.ownClass (p : Pkt) : Nat := if p.session.isSome then 5 else if p.orig.isSome then 1 else if p.rxFlag 1 then 4 else 0

/-- The cells that the committed frame needs and does not hold. A copy that shares its original's cells holds those too. -/
def Pkt.lacks (p : Pkt) (old : Nat) : Nat := if p.orig.isSome then p.cells - max old p.bufs.length else p.cells - p.bufs.length

/-- The cells of a committed frame: a frame that has grown takes cells from the pool in the call slip, and one that has shrunk
keeps those it has until it leaves (R190, R191). None where the pool is EMPTY. -/
def State.fitCells (s : State) (quad : Nat) (old : Nat) (p : Pkt) : State × Option Pkt :=
  match s.cellsFor p.pool quad p.ownClass 16 (p.lacks old) with
  | (s1, some bs) => (s1, some { p with bufs := p.bufs ++ bs })
  | (s1, none) => (s1, none)

/-- A MIRROR word commits: a usable flow session sees the packet, any other is counted (R248). -/
def State.commitMirror (s : State) (m : Nat) (p : Option Pkt) : State :=
  if s.mirUsable m 2 then
    match p with
    | none => s
    | some x => s.mirrorSee m 2 x
  else (s.bump Reg.mirBadCnt 1).setEv Reg.mirEvents 1

/-- One entry of a commit buffer but the fate (Table 3.3). -/
def State.commitEntry (s : State) (slice : Nat) (p : Option Pkt) (e : CEntry) : State :=
  match e with
  | .upd loc res => s.applyUpd loc res
  | .learn t key res => s.applyLearn slice t key res
  | .cnt i n => s.addCtr i n.toNat
  | .meter m c x => s.meterDebit slice m c x
  | .post w => s.postIn w
  | .postErr => s.catCount slice 0
  | .balloc b => s.allocate b 3
  | .bfree pool num => s.free' pool num 3 (slice / 2)
  | .mirror m => s.commitMirror m p
  | .fate _ => s

/-- The counted lookups of a run (R356, Table 14.1): hits, misses and errors of their tables, errors of the wing too. -/
def State.commitLook (s : State) (slice : Nat) (x : Nat × Nat) : State :=
  let s1 := s.addCtr (tableCtr (slice / 2) x.1 x.2) 1
  if x.2 = 2 then s1.catCount slice 0 else s1

/-- The fate of a run among its entries. -/
def fateOf (l : List CEntry) : Fate :=
  match l.findSome? (fun e => match e with | .fate f => some f | _ => none) with
  | some f => f
  | none => .exit

/-- Code of a fate in call slip FATE (Table 3.2). -/
def Fate.code : Fate → Nat
  | .fwd => 1 | .repl => 2 | .punt => 3 | .recirc => 4 | _ => 0

/-- Drop a frame that is too long, or give it its cells and write it to them (R120, R191). What a frame whose end is still to
come lacks is known at its end (R135). -/
def State.sized (s : State) (slice old : Nat) (p : Pkt) : State × Option Pkt :=
  if 16383 < p.len then (s.dropIn p slice 0x38, none)
  else
    match s.fitCells (slice / 2) old p with
    | (s1, none) => (s1.dropIn p slice 0x40, none)
    | (s1, some q) => (s1.storePkt q, some q)

/-- SA names a context, if its valid bit is set (R304, R305). -/
def Pkt.saIndex (p : Pkt) : Option Nat :=
  let v := slipGet p.slip 0x40 4
  if 2 ^ 31 ≤ v then some (v % 2 ^ 15) else none

/-- A context named where it cannot act (R304). -/
def State.saMisuse (s : State) (slice : Nat) : State := (s.bump (Reg.cipMisuseCnt slice) 1).setEv (Reg.cipEvents slice) 3

/-- A frame passes a BYPASS context and is counted in it (Table 11.1): now, or when its end has come. -/
def State.bypass (s : State) (slice i : Nat) (p : Pkt) : State × Pkt :=
  if p.ended then (s.countSa slice i p.len, p) else (s, { p with byp := p.byp ++ [32768 * slice + i] })

/-- A recirculated packet meets its cipher point, and then its queue (R150, R304). -/
def State.recirculate (s : State) (p : Pkt) : State :=
  let sl := p.slice
  match p.saIndex with
  | none => s.recircIn p
  | some i =>
    let c := s.saCtx sl i
    if saEsp c then s.setSlice sl { s.slice sl with cip := (s.slice sl).cip ++ [⟨p, true, false⟩] }
    else if saMac c then (s.saMisuse sl).recircIn p
    else if saMode c = 0 then (s.bypass sl i p).1.recircIn (s.bypass sl i p).2
    else s.recircIn p

/-- The fate of an ingress run (R68, R129, R146, R150). -/
def State.ingressFate (s : State) (slice : Nat) (f : Fate) (old : Nat) (p : Pkt) : State :=
  match p.bad with
  | some code => (s.dropIn p slice code).releaseHand
  | none =>
    match f with
    | .exit => (s.dropIn p slice 0x31).releaseHand
    | .drop => (s.dropIn p slice 0x32).releaseHand
    | .recirc =>
      match s.sized slice old p with
      | (s1, none) => s1.releaseHand
      | (s1, some q) => (s1.recirculate q).releaseHand
    | _ =>
      match s.sized slice old p with
      | (s1, none) => s1.releaseHand
      | (s1, some q) => s1.handOff (q.setSlip 0x4C 1 f.code)

/-- The fate of an egress run (R68, R130, R148). -/
def State.egressFate (s : State) (slice : Nat) (f : Fate) (old : Nat) (p : Pkt) : State :=
  match p.bad with
  | some code => s.dropIn p slice code
  | none =>
    match f with
    | .drop => s.dropIn p slice 0x32
    | .repl => s.dropIn p slice 0x37
    | .recirc => s.dropIn p slice 0x37
    | .punt =>
      match s.sized slice old p with
      | (s1, none) => s1
      | (s1, some q) => s1.punt .egress q
    | _ =>
      match s.sized slice old p with
      | (s1, none) => s1
      | (s1, some q) => s1.setSlice slice { s1.slice slice with done := (s1.slice slice).done ++ [q] }

/-- The commit of the run of a thread: lookups counted, entries in program order, the fate last; the thread is free
again or bound (R71, R73). -/
def State.commit (s : State) (n : Nat) : State :=
  let th := s.threadN n
  let sl := tidSlice n
  let frame := th.frame
  let s1 := th.looks.foldl (fun x l => x.commitLook sl l) s
  let s2 := th.buf.foldl (fun x e => x.commitEntry sl frame e) s1
  let s3 := th.taken.foldl (fun x b => x.noteLow b.pool) (s2.setThreadN n th.release)
  match th.pkt, frame with
  | some p, some q =>
    if th.egress then s3.egressFate sl (fateOf th.buf) p.cells q else s3.ingressFate sl (fateOf th.buf) p.cells q
  | _, _ => s3

/-- The retired threads in the order in which they retired (R74). -/
def State.retiredOrder (s : State) : List Nat :=
  let l := (s.threads.filter (fun x => x.2.state == .retired)).map (fun x => (x.2.order, x.1))
  (l.mergeSort (fun a b => decide (a.1 ≤ b.1))).map (fun x => x.2)

/-- COMMIT_APPLY (R73, R74, R239): the run that retired first commits first. -/
def execCommitApply (t : Tid) (s : State) : Res :=
  if (s.thread t).state = .retired ∧ s.retiredOrder.head? = some (tidIdx t) then .next (s.commit (tidIdx t)).notePfc else .next s

end Sys2Proof.Machine
end

