-- ==== Sys2Proof/Machine/SwitchCore.lean ====
section
/-! DEFINITION. The switch core: resequencers, planes and their recovery (chapter 8, sections 1 to 3; R295 for the credits a
resequencer gives back). -/

namespace Sys2Proof.Machine

/-! ### Resequencer contexts (R220) -/

/-- A resequencer context. -/
def State.reseq (s : State) (k : Nat) : Reseq := SMap.find Reseq.reset s.core.ctx k

/-- Replace a resequencer context. -/
def State.setReseq (s : State) (k : Nat) (x : Reseq) : State :=
  { s with core := { s.core with ctx := SMap.set Reseq.reset s.core.ctx k x } }

/-- The source device of a context's stream. -/
def State.ctxDev (s : State) (k : Nat) : Nat := if 32768 ≤ k then s.devId else k % 4096 / 64

/-- The stream comes from another device. -/
def State.ctxFar (s : State) (k : Nat) : Bool := s.ctxDev k != s.devId

/-- RESEQ_WAIT of a context (R222). -/
def State.reseqWait (s : State) (k : Nat) : Nat :=
  if s.ctxFar k then s.cfgF Reg.coreReseq 23 16 else s.cfgF Reg.coreReseq 7 0

/-- Gaps of a context are skipped at once (R225, R228). -/
def State.flushing (s : State) (k : Nat) : Bool :=
  (s.ctxFar k && (decide (s.now < s.core.fabEnd))) || (!s.ctxFar k && decide (s.now < s.core.flushEnd))

/-- The quadrant whose caches take the cells of a packet dropped in a context. -/
def ctxQuad (k : Nat) (p : Pkt) : Nat := if ctxSite k = hubSite then p.slice / 2 else ctxSite k / 2

/-- The credit context of a stream from another device: device, destination slice, class (R295). -/
def creditKey (dev slice tc : Nat) : Nat := 64 * dev + 8 * slice + tc

/-- A cell of another device's stream leaves its resequencer: every 16th adds one to TOTAL (R295). -/
def State.creditBack (s : State) (k : Nat) : State :=
  if s.ctxFar k = false then s
  else
    let key := creditKey (s.ctxDev k) (ctxSite k) (k % 8)
    let c := SMap.find ⟨0, 0⟩ s.fabric.dst key
    let c1 : DstCredit := if c.cells = 15 then ⟨c.total + 1, 0⟩ else ⟨c.total, c.cells + 1⟩
    { s with fabric := { s.fabric with dst := SMap.set ⟨0, 0⟩ s.fabric.dst key c1 } }

/-! ### Release (R221) -/

/-- A packet leaves its resequencer: to the queues of its slice, or to the replication engine (R223, R245). -/
def State.arriveAt (s : State) (k kind : Nat) (p : Pkt) : State :=
  match p.bad with
  | some code => s.dropPkt p (ctxSite k) code (ctxQuad k p)
  | none =>
    if kind = 3 then { s with tm := { s.tm with jobs := s.tm.jobs ++ [⟨p, slipGet p.slip 0x3C 2, 0, s.now⟩] } }
    else
      let x := s.slice (ctxSite k)
      s.setSlice (ctxSite k) { x with arrived := x.arrived ++ [p] }

/-- The last cell of a packet has left its resequencer: the packet, or the rest of a frame that stands past the core. -/
def State.arrive (s : State) (t : Transit) : State :=
  let s1 := s.setTransit t none
  if t.early then s1.joinRest t.pkt.id t.rest t.restBufs
  else s1.arriveAt t.ctx t.kind { t.whole with ended := true }

/-- The last of the cells that a frame still arriving has sent has left its resequencer: the packet goes on without its rest
(R135). -/
def State.arriveHead (s : State) (t : Transit) : State :=
  if t.pkt.bad.isSome then s.arrive t
  else (s.setTransit t (some { t with early := true, pkt := { t.pkt with bufs := [] } })).arriveAt t.ctx t.kind t.pkt

/-- A cell of the device's own whose packet is no more is discarded, and its ODB cell freed (R221, R222). -/
def State.orphan (s : State) (k : Nat) (c : Cell) : State :=
  if c.copy ∨ s.core.transit.any (fun t => decide (t.pkt.id = c.pkt)) = true then s
  else c.buf.toList.foldl (fun x b => x.freeOwn ((if ctxSite k = hubSite then c.srcSl else ctxSite k) / 2) b) s

/-- A packet of another device is whole: call slip and frame (R215). Its cells come from the pool its call slip names,
recorded as INGRESS (log 26). R146 is applied to it here (R241). -/
def State.fabArrive (s : State) (k : Nat) (bs : List Byte) : State :=
  let sl := ctxSite k
  let slip := slipBytes 0 0 (bs.take 128)
  let frame := bs.drop 128
  let data := frame.take (frame.length - 4)
  let (id, s1) := s.fresh
  let dev := s.ctxDev k
  let p : Pkt := { Pkt.blank with
    id := id, ord := id, data := data, slip := slip, rxPort := 1023, slice := sl, extDev := some dev,
    drain := s.dcp.drainNo }
  match s1.cellsFor p.pool (sl / 2) 0 16 p.cells with
  | (s2, none) => s2.countDrop sl 0x40
  | (s0, some bufs) =>
    let q := { p with bufs := bufs }
    let s2 := s0.storePkt q
    if decide (q.destKind = 1) && decide (q.destPort / 64 = sl) && s2.portExists q.destPort &&
        s2.queueOf q.destQueue q.destPort then
      s2.setSlice sl { s2.slice sl with arrived := (s2.slice sl).arrived ++ [q] }
    else s2.dropIn q sl 0x3A

/-- The bytes gathered so far of a packet from another device. -/
def State.gathered (s : State) (k : Nat) : List Byte := SMap.find [] s.core.asm k

/-- Replace them. -/
def State.setGathered (s : State) (k : Nat) (l : List Byte) : State :=
  { s with core := { s.core with asm := SMap.set [] s.core.asm k l } }

/-- A cell leaves its resequencer in order. The last cell of a packet completes it; a cell of a packet dropped by a skip
is discarded (R221, R222). -/
def State.releaseCell (s : State) (k : Nat) (c : Cell) : State :=
  let s1 := s.creditBack k
  if s.ctxFar k = false then
    match s1.core.transit.find? (fun t => t.pkt.id == c.pkt && t.ctx == k) with
    | none => s1.orphan k c
    | some t =>
      if c.last then s1.arrive t
      else if c.seq + 1 = t.first + BitVec.ofNat 16 t.head ∧ t.early = false ∧ t.head < t.cells + b2n t.more then
        s1.arriveHead t
      else s1
  else
    let old := if c.first then [] else s1.gathered k
    if c.first = false ∧ old = [] then s1
    else if c.last then (s1.setGathered k []).fabArrive k (old ++ c.data)
    else s1.setGathered k (old ++ c.data)

/-- Release the held cells that follow without a gap. -/
def State.drainHeld (s : State) (k : Nat) : Nat → State
  | 0 => s
  | n + 1 =>
    let x := s.reseq k
    match x.held.find? (fun c => decide (x.e = some c.seq)) with
    | none => s
    | some c =>
      ((s.setReseq k { x with held := x.held.erase c, e := some (c.seq + 1) }).releaseCell k c).drainHeld k n

/-! ### Skips (R222, R225) -/

/-- A packet of m cells numbered from f has a cell among the g numbers from e. -/
def meetsGap (f : BitVec 16) (m : Nat) (e : BitVec 16) (g : Nat) : Bool :=
  let d := (f - e).toNat
  decide (d < g) || decide (65536 < d + m)

/-- The cells missing before the lowest held number. -/
def Reseq.missing (x : Reseq) : Nat :=
  match x.e with
  | none => 0
  | some e => (x.held.map (fun c => (c.seq - e).toNat)).foldl min 65536

/-- The reason of a skip. -/
def State.skipCode (s : State) (k : Nat) : Nat := if s.flushing k then 0x55 else 0x50

/-- The packets of a context of the device's own that have a cell among g missing numbers from e. -/
def State.gapPkts (s : State) (k g : Nat) (e : BitVec 16) : List Transit :=
  s.core.transit.filter (fun t => decide (t.ctx = k) && meetsGap t.first t.cells e g)

/-- A packet with a missing cell is dropped (R222): its cells that arrived are discarded and freed, and of one that stands past
the core already what stands there fails. -/
def State.dropGapPkt (s : State) (k code : Nat) (t : Transit) : State :=
  let s1 := s.setTransit t none
  if t.early then (s1.freeLanded (ctxQuad k t.pkt) t.pkt.id t.restBufs).failCut t.pkt.id code code
  else
    let p := t.whole
    (s1.freeLanded (ctxQuad k p) p.id p.bufs).dropPkt { p with bufs := [] } (ctxSite k) code (ctxQuad k p)

/-- Drop the packets of the device's own stream that have a cell among the missing numbers. -/
def State.dropGapPkts (s : State) (k g : Nat) (e : BitVec 16) : State :=
  (s.gapPkts k g e).foldl (fun x t => x.dropGapPkt k (s.skipCode k) t) s

/-- How far E moves when the gap of g numbers from e is skipped: past the packets dropped with it, but not past a cell that is
still held (R222; DEDUCED, log 91). -/
def State.skipTo (s : State) (k g : Nat) (e : BitVec 16) : Nat :=
  let gone := s.gapPkts k g e
  let kept := (s.reseq k).held.filter (fun c => !gone.any (fun t => decide (t.pkt.id = c.pkt)))
  let past := (gone.map (fun t => (t.first + BitVec.ofNat 16 t.cells - e).toNat)).foldl max g
  (kept.map (fun c => (c.seq - e).toNat)).foldl min past

/-- Drop the packets of another device's stream that have a cell among g missing numbers: how many they are is a FREE
VALUE between 1 and g (log 34), since their cells never arrived. -/
def State.dropGapFar (s : State) (k g : Nat) : State :=
  let n := 1 + (Config.freeWord s.free).toNat % g
  ((s.setGathered k []).addCtr (dropCtr (ctxSite k) (s.skipCode k)) n).nextFree

/-- Skip the open gap of a context: its packets are dropped with their cells that are held, and E moves on. -/
def State.skipGap (s : State) (k : Nat) : State :=
  let x := s.reseq k
  match x.e with
  | none => s
  | some e =>
    let g := x.missing
    if x.held = [] ∨ g = 0 then s
    else
      if s.ctxFar k then
        let s1 := s.dropGapFar k g
        s1.setReseq k { s1.reseq k with e := some (e + BitVec.ofNat 16 g), gap := none }
      else
        let ids := (s.gapPkts k g e).map (fun t => t.pkt.id)
        let s1 := s.dropGapPkts k g e
        s1.setReseq k { s1.reseq k with
          held := (s1.reseq k).held.filter (fun c => !ids.contains c.pkt)
          e := some (e + BitVec.ofNat 16 (s.skipTo k g e)), gap := none }

/-- After E has moved: release what follows, then a gap that remains opens now, or is skipped at once in a flush. -/
def State.settleCtx (s : State) (k : Nat) : Nat → State
  | 0 => s
  | n + 1 =>
    let s1 := s.drainHeld k (s.reseq k).held.length
    let x := s1.reseq k
    if x.held = [] then s1.setReseq k { x with gap := none }
    else if s1.flushing k then (s1.skipGap k).settleCtx k n
    else s1.setReseq k { x with gap := some s1.now }

/-- Skip a gap and continue under R221. -/
def State.skipAndGo (s : State) (k : Nat) : State :=
  let n := (s.reseq k).held.length
  (s.skipGap k).settleCtx k (n + 1)

/-- Cells held by a resequencer. -/
def State.heldAt (s : State) (site : Nat) : Nat :=
  ((s.core.ctx.filter (fun x => ctxSite x.1 == site)).map (fun x => x.2.held.length)).sum

/-- The hold store of a resequencer is full: the gap that has waited longest is skipped (R222). -/
def State.forceSkip (s : State) (site : Nat) : State :=
  let open' := (s.core.ctx.filter (fun x => ctxSite x.1 == site && x.2.gap.isSome)).map (fun x => (x.2.gap.getD 0, x.1))
  match open'.foldl (fun (b : Option (Nat × Nat)) a => match b with
    | none => some a
    | some y => if a.1 < y.1 then some a else some y) none with
  | none => s
  | some (_, k) => (s.skipAndGo k).setEv Reg.coreEvents 3

/-- A cell waits for a gap. -/
def State.holdCell (s : State) (k : Nat) (c : Cell) : State :=
  let x := s.reseq k
  let s1 := s.setReseq k { x with held := x.held ++ [c], gap := some (x.gap.getD s.now) }
  if s.flushing k then s1.skipAndGo k else s1

/-- A cell reaches its context, with room in the hold store (R221). The first cell of a context gives its expected number
(R407). -/
def State.placeCell (s : State) (k : Nat) (c : Cell) : State :=
  let x := s.reseq k
  let e := x.e.getD c.seq
  let d := (c.seq - e).toNat
  if d = 0 then
    let s1 := (s.setReseq k { x with e := some (e + 1) }).releaseCell k c
    if x.held = [] then s1 else s1.settleCtx k (x.held.length + 1)
  else if d < 32768 then s.holdCell k c
  else ((s.creditBack k).orphan k c).setEv Reg.coreEvents 0

/-- A cell reaches its context (R221, R222). -/
def State.feedCell (s : State) (k : Nat) (c : Cell) : State :=
  let d := (c.seq - (s.reseq k).e.getD c.seq).toNat
  if 0 < d ∧ d < 32768 ∧ 16384 ≤ s.heldAt (ctxSite k) then (s.forceSkip (ctxSite k)).placeCell k c else s.placeCell k c

/-! ### Cells leave the planes (R216, R217, R221) -/

/-- Errors of the last 256 ticks, with one of this tick. -/
def State.planeErr (s : State) (p : Nat) : State :=
  let x := s.plane p
  ((s.setPlane p { x with errs := recentTicks x.errs s.now 256 }).bump (Reg.plHcrcCnt p) 1).setEv (Reg.plEvents p) 2

/-- A copy of the replication engine has lost a cell: it is dropped where it stands, or leaves with an inverted FCS. -/
def State.loseCopy (s : State) (c : Cell) (code : Nat) : State := s.failCut c.pkt code code

/-- A cell whose HCRC fails: its ODB cell is freed, and its number stays missing (R221). -/
def State.loseCell (s : State) (c : Cell) : State :=
  if c.copy then s.loseCopy c 0x50
  else
    match s.core.transit.find? (fun t => t.pkt.id == c.pkt && decide (c.data = [])), c.buf with
    | some t, some b =>
      (s.setTransit t (some { t with pkt := { t.pkt with bufs := t.pkt.bufs.erase b }, restBufs := t.restBufs.erase b })).freeOwn
        (ctxQuad t.ctx t.pkt) b
    | none, some b => if c.data = [] then s.freeOwn (c.srcSl / 2) b else s
    | _, none => s

/-- The context a cell belongs to. -/
def Cell.ctx (c : Cell) : Nat := ctxOf c.kind c.srcDev c.srcSl c.dstSl c.tc

/-- The next cell of a plane's output queue: express cells leave first (R217). -/
def nextCell (q : List Cell) : Option Cell :=
  match q.find? (fun c => c.expr) with
  | some c => some c
  | none => q.head?

/-- CELL_ARRIVE (R216, R217, R221): a plane delivers its next cell, at most 625 in a tick. A plane under test delivers a test
cell (R227). A cell of a copy, whose place in its queue is settled already, meets no resequencer (DESIGN CHOICE, log 42). -/
def execCellArrive (plane : Fin 16) (hcrcBad : Bool) (s : State) : Res :=
  let p := plane.val
  let x := s.plane p
  if x.state = 2 then
    if hcrcBad then .next ((s.planeErr p).setPlane p { (s.planeErr p).plane p with failed := true }) else .next s
  else if planeRate ≤ x.sent then .next s
  else
    match nextCell x.q with
    | none => .next s
    | some c =>
      let s1 := s.setPlane p { x with q := x.q.erase c, sent := x.sent + 1 }
      if hcrcBad then .next ((s1.planeErr p).loseCell c)
      else if c.copy then .next s1
      else .next (s1.feedCell c.ctx c)

/-- RESEQ_GAP (R222): the gap of a context has waited RESEQ_WAIT ticks, or one tick boundary where RESEQ_WAIT is 0. Slice 8
names the resequencer of the replication engine. -/
def execReseqGap (slice ctx : Nat) (s : State) : Res :=
  let k := 4096 * slice + ctx % 4096
  match (s.reseq k).gap with
  | none => .next s
  | some t => if t + max 1 (s.reseqWait k) ≤ s.now ∨ s.flushing k = true then .next (s.skipAndGo k) else .next s

/-! ### Planes (R224 to R227) -/

/-- Set STATE and CAUSE of a plane. -/
def State.planeState (s : State) (p st cause : Nat) : State := s.setPlane p { s.plane p with state := st, cause := cause }

/-- Planes in state DOWN. -/
def State.planesDown (s : State) : Nat := ((List.range 16).filter (fun p => decide ((s.plane p).state = 1))).length

/-- Skip every open gap of the contexts picked (R225, R228). -/
def State.skipOpen (s : State) (pick : Nat → Bool) : State :=
  (s.core.ctx.filter (fun x => x.2.gap.isSome && pick x.1)).foldl (fun y x => y.skipAndGo x.1) s

/-- The Vigil event of a plane in state DOWN or OUT, with PLANE_SECOND and the failure cause where they arise
(Tables 17.2 and 17.3). -/
def State.planeVigil (s : State) (p : Nat) : State :=
  let second := decide (2 ≤ s.planesDown) && decide ((s.plane p).state = 1)
  let dead := decide ((s.plane p).state = 1) && (List.range 16).all (fun i => decide ((s.plane i).state ≠ 0))
  s.vigilRaise 0x0010 p (if second then 2 else 0) dead (nsOf (s.oAt 0))

/-- At a boundary a plane is declared DOWN or OUT (R224, R225): it leaves the spray set at the next boundary, and until RESEQ_WAIT ticks
after it every gap is skipped at once. -/
def State.declarePlane (s : State) (p st cause : Nat) : State :=
  let x := s.plane p
  let s1 := s.setPlane p { x with state := st, cause := cause, leave := true }
  let s2 := ((s1.setEv (Reg.plEvents p) 0).noticeAt 0x0021 (nsOf (s.oAt 0)) [BitVec.ofNat 8 p, BitVec.ofNat 8 cause, 0, 0]).planeVigil p
  let s3 := { s2 with core := { s2.core with
    flushEnd := max s2.core.flushEnd (s2.now + 1 + s2.cfgF Reg.coreReseq 7 0)
    fabEnd := max s2.core.fabEnd (s2.now + 1 + s2.cfgF Reg.coreReseq 23 16) } }
  (s3.setEv Reg.coreEvents 2).skipOpen (fun _ => true)

/-- Why a plane would be declared at this boundary (R224): a plane in service for missed heartbeats or failed HCRCs, any plane
that is not OUT for TAKE_OUT. -/
def State.planeCause (s : State) (p : Nat) : Option (Nat × Nat) :=
  let x := s.plane p
  let miss := s.cfgF (Reg.plLimit p) 19 16
  let lim := s.cfgF (Reg.plLimit p) 15 0
  let errs := (x.errs.filter (fun t => decide (s.now ≤ t + 256))).length
  if x.state = 0 ∧ miss ≠ 0 ∧ x.miss.any (fun e => decide (miss ≤ e.2)) = true then some (1, 1)
  else if x.state = 0 ∧ lim ≠ 0 ∧ lim ≤ errs then some (1, 2)
  else if x.state ≠ 3 ∧ s.cfgB (Reg.plCtl p) 0 = true then some (3, 3)
  else none

/-- PLANE_DOWN (R224): the heartbeat cell of a plane in this tick has not reached some egress slices. The plane is declared at
the boundary after PLANE_MISS such ticks. A heartbeat of which nothing is said has arrived. -/
def execPlaneDown (plane : Fin 16) (missed : BitVec 8) (s : State) : Res :=
  let x := s.plane plane.val
  if x.state = 0 ∨ x.state = 2 then .next (s.setPlane plane.val { x with missed := x.missed ||| missed }) else .next s

/-- At a boundary the heartbeats of the tick that ended are counted (R224), and one missed fails a test (R227). -/
def Plane.beat (x : Plane) : Plane :=
  { x with
    miss := (List.range 8).foldl (fun m e =>
      if bit x.missed e then (m.drop e).insert e (SMap.find 0 x.miss e + 1) else m.drop e) x.miss
    failed := x.failed || (decide (x.state = 2) && decide (x.missed ≠ 0))
    missed := 0 }

/-- At a boundary a plane is declared for a cause that has arisen (R224); TAKE_OUT is cleared. -/
def State.planeJudge (s : State) (p : Nat) : State :=
  let s1 := s.setPlane p (s.plane p).beat
  let s2 := match s1.planeCause p with
    | none => s1
    | some (st, cause) => s1.declarePlane p st cause
  if s2.cfgB (Reg.plCtl p) 0 then s2.clrBit (Reg.plCtl p) 0 else s2

/-- The cells in the queue of a plane that has left are lost: those of packets already dropped are freed, a copy fails. -/
def State.loseQueued (s : State) (l : List Cell) : State :=
  l.foldl (fun x c => if c.copy then x.loseCopy c 0x55 else if c.data = [] then x.orphan c.ctx c else x) s

/-- At a boundary a plane declared a tick ago leaves the spray set; the cells in its queue are lost (R225). -/
def State.leaveSpray (s : State) (p : Nat) : State :=
  let x := s.plane p
  if x.leave = false then s
  else
    let s1 := s.setPlane p { x with leave := false, q := [] }
    ({ s1 with core := { s1.core with spray := setBits s.core.spray p p 0 } }.setEv Reg.coreEvents 1).loseQueued x.q

/-- At a boundary RETURN of a plane that is DOWN or OUT begins its test (R227). One that finds its plane in another state is
cleared (DEDUCED, log 35). -/
def State.planeReturn (s : State) (p : Nat) : State :=
  let x := s.plane p
  if s.cfgB (Reg.plCtl p) 1 = false then s
  else
    (if (x.state = 1 ∨ x.state = 3) ∧ x.leave = false then
      s.setPlane p { x with state := 2, tested := s.now, failed := false, errs := [], miss := [], ending := false }
    else s).clrBit (Reg.plCtl p) 1

/-- At the boundary that ends its test a plane without a failure joins the spray set; another is DOWN again (R227). -/
def State.planeTested (s : State) (p : Nat) : State :=
  let x := s.plane p
  if x.state ≠ 2 ∨ (x.ending = false ∧ s.now < x.tested + 1024) then s
  else if x.beat.failed then
    let s1 := s.setPlane p { x with state := 1, cause := 4, ending := false }
    if s1.planesDown = 2 then s1.planeVigil p else s1
  else
    let s1 := s.setPlane p { x with state := 0, cause := 0, ending := false }
    ({ s1 with core := { s1.core with spray := setBits s1.core.spray p p 1 } }.setEv (Reg.plEvents p) 1).setEv Reg.coreEvents 1

/-- A write of 1 to a bit of PL_CTL. -/
def State.plCtlWrite (s : State) (p n : Nat) : State := s.setEv (Reg.plCtl p) n

/-- TAKE_OUT (R224): the write; the plane leaves at the next boundaries. -/
def execTakeOut (plane : Fin 16) (s : State) : Res := .next (s.plCtlWrite plane.val 0)

/-- RETURN (R227): the write; the self-test starts at the next boundary. -/
def execPlaneReturn (plane : Fin 16) (s : State) : Res := .next (s.plCtlWrite plane.val 1)

/-- PLANE_TEST_END (R227): the boundary that ends this tick ends the 1,024 ticks of a test, and the heartbeat cell of the tick has not
reached some egress slices. TICK_BOUNDARY finds the end where this command has not told it. -/
def execPlaneTestEnd (plane : Fin 16) (missed : BitVec 8) (s : State) : Res :=
  let x := s.plane plane.val
  if x.state ≠ 2 ∨ s.now + 1 < x.tested + 1024 then .next s
  else .next (s.setPlane plane.val { x with ending := true, missed := x.missed ||| missed })

/-- PATH_FLUSH_END (R225, R228): a flush window that has passed ends. -/
def execPathFlushEnd (s : State) : Res :=
  .next { s with core := { s.core with
    flushEnd := if s.core.flushEnd ≤ s.now then 0 else s.core.flushEnd
    fabEnd := if s.core.fabEnd ≤ s.now then 0 else s.core.fabEnd } }

end Sys2Proof.Machine
end

