-- ==== Sys2Proof/Machine/Queueing.lean ====
section
/-! DEFINITION. Egress queues: the tests of an arrival, the scheduler and its shapers, and the flush of a port that leaves
service (chapter 8, sections 5 and 6). -/

namespace Sys2Proof.Machine

/-! ### WRED (R235) -/

/-- A WRED profile's decision for a colour and an average depth; the draw is a FREE VALUE with the probability R235 gives
(Config.wredDrop): true drops. -/
def State.wredDrops (s : State) (slice profile colour : Nat) (avg : Rat) : Bool :=
  let w := s.cfg (Reg.coreWred profile colour)
  let unit := 2 ^ s.cfgF (Reg.coreWred profile 3) 11 8
  let lo := bits w 11 0 * unit
  let hi := bits w 23 12 * unit
  if avg < lo ∨ (lo = 0 ∧ hi = 0) then false
  else if (hi : Rat) ≤ avg then true
  else decide (bits w 31 24 ≠ 0) && decide ((lo : Rat) < avg) && Config.wredDrop slice (SMap.find 0 s.tm.draws slice)

/-- The average after an arrival that finds a depth. -/
def State.wredAvg (s : State) (profile : Nat) (avg : Rat) (depth : Nat) : Rat :=
  avg + ((depth : Rat) - avg) / ((2 ^ s.cfgF (Reg.coreWred profile 3) 3 0 : Nat) : Rat)

/-- One more draw of a slice's generator has been made. -/
def State.nextDraw (s : State) (slice : Nat) : State :=
  { s with tm := { s.tm with draws := SMap.set 0 s.tm.draws slice (SMap.find 0 s.tm.draws slice + 1) } }

/-! ### Enqueue (R210, R213, R234) -/

/-- WRED profile of a queue. -/
def State.queueWred (s : State) (q : Nat) : Nat := bits (s.queueWord q 1) 27 20

/-- The averages of a queue follow an arrival (R235, R213). -/
def State.noteArrival (s : State) (q : Nat) : State :=
  let x := s.queue q
  s.setQueue q { x with
    avg := s.wredAvg (s.queueWred q) x.avg x.depth
    tavg := if x.shelv then s.wredAvg (bits (s.shelveB q) 23 16) x.tavg x.tail else x.tavg }

/-- Test 2: the depth of the queue or of its port would pass its limit; 0 sets none. -/
def State.tailFull (s : State) (q n : Nat) : Bool :=
  let qmax := 16 * bits (s.queueWord q 1) 19 0
  let port := s.queuePort q
  let pmax := 16 * s.cfgF (Reg.tmNode (port / 64) 0x78000 (port % 64) 1) 27 0
  (decide (qmax ≠ 0) && decide (qmax < (s.queue q).depth + n)) || (decide (pmax ≠ 0) && decide (pmax < s.portDepth port + n))

/-- Test 4 on a shelving queue: SHELVE_BUSY, or WRED_DROP by BUSY_WRED (R213). -/
def State.shelveTest (s : State) (q : Nat) (p : Pkt) : Option Nat :=
  let x := s.queue q
  let b := s.shelveB q
  if x.shelv = false then none
  else if bit b 31 && s.wredDrops (queueSlice q) (bits b 23 16) p.colour x.tavg then some 0x52
  else if bits b 11 0 ≤ x.tail then some 0x41
  else none

/-- The tests of R234 on an arrival at a queue, its averages brought up to date: a drop reason, or none. A DEST that names no
port (R252), and a queue that is not enabled and so belongs to no port (DEDUCED, log 38), are not in service. -/
def State.arrivalTests (s : State) (q : Nat) (p : Pkt) (again : Bool) : State × Option Nat :=
  let sl := queueSlice q
  if s.portExists p.destPort = false ∨ s.queueEn q = false then (s, some 0x56)
  else
    let s1 := if again then s else s.noteArrival q
    if s1.inService (s.queuePort q) = false then (s1, some 0x56)
    else if s.tailFull q p.cells then (s1, some 0x51)
    else
      let s2 := s1.nextDraw sl
      if bit (s1.queueWord q 2) 27 && s1.wredDrops sl (s1.queueWred q) p.colour (s1.queue q).avg then (s2, some 0x52)
      else (s2.nextDraw sl, s2.shelveTest q p)

/-- A packet joins a queue that its tests let in: the queue becomes shelving if its depth now exceeds SHELVE_AT, and a
shelving queue's arrivals join its tail (R210). QDEPTH_ENQ is the depth the packet found (DEDUCED, log 39). -/
def State.enqueueOk (s : State) (q : Nat) (p : Pkt) : State :=
  let x := s.queue q
  let a := s.shelveA q
  let p1 := { p.setSlip 0x74 4 x.depth with queue := some q }
  let shelv := x.shelv || (bit a 31 && decide (bits a 19 0 < x.depth + p.cells))
  let x1 := { x with
    pkts := x.pkts ++ [p1]
    shelv := shelv
    head := if shelv then x.head else x.head + p.cells
    tail := if shelv then x.tail + p.cells else x.tail }
  (s.setQueue q x1).settleQueue q false

/-- A drop at the queues of a slice sets TAIL_DROP where that is its reason. -/
def State.dropQueued (s : State) (p : Pkt) (slice code : Nat) : State :=
  let s1 := s.dropIn p slice code
  if code = 0x51 then s1.setEv (Reg.tmEvents slice) 0 else s1

/-- A packet arrives at its queue (R234). -/
def State.enqueuePkt (s : State) (slice : Nat) (p : Pkt) : State :=
  match p.bad with
  | some code => s.dropIn p slice code
  | none =>
    match s.arrivalTests p.destQueue p false with
    | (s1, some code) => s1.dropQueued p slice code
    | (s1, none) => s1.enqueueOk p.destQueue p

/-- ENQUEUE (R234, R239): the next packet that has reached the queues of a slice. -/
def execEnqueue (slice : Fin 8) (s : State) : Res :=
  let x := s.slice slice.val
  match x.arrived with
  | [] => .next s
  | p :: rest => .next ((s.setSlice slice.val { x with arrived := rest }).enqueuePkt slice.val p).notePfc

/-! ### The scheduler (R232, R233) -/

/-- The nodes above a queue, each by its place in the TM block: group, subscriber, class set; the queue itself last. -/
def State.queuePath (s : State) (q : Nat) : List Nat :=
  let sl := queueSlice q
  let cs := bits (s.queueWord q 0) 12 0
  let sub := s.nodeParent sl 0x40000 cs
  let grp := s.nodeParent sl 0x60000 sub
  [0x70000 + 16 * (grp % 512), 0x60000 + 16 * (sub % 4096), 0x40000 + 16 * cs, 0x80000 + 16 * (q % 32768)]

/-- The place of a local port's node. -/
def portNode (port : Nat) : Nat := 0x78000 + 16 * (port % 64)

/-- Word w of a node or queue by its place in the TM block. -/
def State.tmWord (s : State) (slice off w : Nat) : Word32 := s.cfg (sliceCa 0x18 slice (off + 4 * w))

/-- The number of a node or queue among all slices. -/
def nodeKey (slice off : Nat) : Nat := 2 ^ 20 * slice + off

/-- The buckets of a node. -/
def State.bucket (s : State) (slice off : Nat) : Bucket := SMap.find ⟨0, 0⟩ s.tm.shapers (nodeKey slice off)

/-- Replace the buckets of a node. -/
def State.setBucket (s : State) (slice off : Nat) (b : Bucket) : State :=
  { s with tm := { s.tm with shapers := SMap.set ⟨0, 0⟩ s.tm.shapers (nodeKey slice off) b } }

/-- A node's peak bucket is not negative, or its PIR is 0 (R232). -/
def State.peakOk (s : State) (slice off : Nat) : Bool :=
  decide (bits (s.tmWord slice off 2) 27 0 = 0) || decide (0 ≤ (s.bucket slice off).p)

/-- A child is served first: its committed bucket is not negative and its CIR is not 0. Queues have no shaper. -/
def State.committed (s : State) (slice off : Nat) : Bool :=
  decide (off < 0x80000) && decide (bits (s.tmWord slice off 1) 27 0 ≠ 0) && decide (0 ≤ (s.bucket slice off).c)

/-- A queue of a port is paused by PFC or PAUSE (R238, R262): a PAUSE pauses every queue. -/
def State.queuePaused (s : State) (q : Nat) : Bool :=
  let m := (s.port (s.queuePort q)).rxPaused
  if s.portFlow (s.queuePort q) = 1 then decide (m ≠ 0)
  else bit (s.queueWord q 2) 31 && bit m (bits (s.queueWord q 2) 30 28)

/-- A queue may be selected: its first packet is wholly in its head (R148), its priority is not paused, and no node above it is
held by its peak shaper (R211, R212, R232). -/
def State.queueReady (s : State) (q : Nat) : Bool :=
  match (s.queue q).pkts with
  | [] => false
  | p :: _ => decide (p.cells ≤ (s.queue q).head) && !s.queuePaused q &&
      ((s.queuePath q).take 3).all (fun o => s.peakOk (queueSlice q) o)

/-- PRIO and WEIGHT of a child. -/
def State.childPrio (s : State) (slice off : Nat) : Nat := bits (s.tmWord slice off 0) 26 24
def State.childWeight (s : State) (slice off : Nat) : Nat := bits (s.tmWord slice off 0) 23 14

/-- Deficit of a child. -/
def State.deficitOf (s : State) (slice off : Nat) : Int := SMap.find 0 s.tm.deficit (nodeKey slice off)

/-- Replace the deficit of a child. -/
def State.setDeficit (s : State) (slice off : Nat) (d : Int) : State :=
  { s with tm := { s.tm with deficit := SMap.set 0 s.tm.deficit (nodeKey slice off) d } }

/-- Bytes of deficit that a child earns in a round. -/
def State.earn (s : State) (slice off : Nat) : Nat := max 1 (s.childWeight slice off) * max 64 (s.cfgF (Reg.tmCfg slice) 11 0)

/-- Rounds until a child of deficit d that earns w in each has a positive deficit, at least one. -/
def roundsFor (d : Int) (w : Nat) : Nat := if 0 < d + w then 1 else (-d).toNat / w + 1

/-- The children in the order of a round: those above the one served last, then the others, each rising. -/
def ringFrom (last : Nat) (l : List Nat) : List Nat := l.filter (fun c => decide (last < c)) ++ l.filter (fun c => decide (c ≤ last))

/-- The number of a round: one for each node, for its committed and its other children, and for each PRIO of theirs. -/
def ringKey (slice node : Nat) (first : Bool) (prio : Nat) : Nat := 16 * nodeKey slice node + 8 * b2n first + prio

/-- The child that deficit round robin serves next among children that share a round, and the deficits as the turns to it leave
them. The child served last goes on while its deficit is positive; the round visits children in rising order (DESIGN CHOICE,
log 37). -/
def State.drrPick (s : State) (slice key : Nat) (l : List Nat) : State × Nat :=
  let last := SMap.find 0 s.tm.rr key
  if l.contains last && decide (0 < s.deficitOf slice last) then (s, last)
  else
    let ring := ringFrom last l
    let need := ring.map (fun c => roundsFor (s.deficitOf slice c) (s.earn slice c))
    let r := need.foldl min (need.headD 1)
    let i := need.findIdx (fun n => n == r)
    let c := ring.getD i 0
    let s1 := ring.zipIdx.foldl (fun x a =>
      x.setDeficit slice a.1 (s.deficitOf slice a.1 + ((if a.2 ≤ i then r else r - 1) * s.earn slice a.1 : Nat))) s
    ({ s1 with tm := { s1.tm with rr := SMap.set 0 s1.tm.rr key c } }, c)

/-- The child of a node that is served next: committed share first, then highest PRIO, then deficit round robin (R232). -/
def State.pickChild (s : State) (slice node : Nat) (kids : List Nat) : State × Nat :=
  let first := kids.filter (s.committed slice)
  let l := if first = [] then kids else first
  let top := (l.map (s.childPrio slice)).foldl max 0
  s.drrPick slice (ringKey slice node (decide (first ≠ [])) top) (l.filter (fun c => decide (s.childPrio slice c = top)))

/-- Go down from a node at a level to a queue; qs are the queues still to choose among. -/
def State.pickDown (s : State) (slice : Nat) : Nat → Nat → Nat → List Nat → State × Option Nat
  | 0, _, _, qs => (s, qs.head?)
  | n + 1, level, node, qs =>
    let kids := ((qs.map (fun q => (s.queuePath q).getD level 0)).eraseDups).mergeSort (fun a b => decide (a ≤ b))
    let r := s.pickChild slice node kids
    r.1.pickDown slice n (level + 1) r.2 (qs.filter (fun q => (s.queuePath q).getD level 0 == r.2))

/-- The first packet of a queue has a transmit opportunity (R47): it takes no egress run, or y, in which the packets dequeued
before it have been bound, can bind it too. -/
def State.egressChance (y : State) (q : Nat) : Bool :=
  match (y.queue q).pkts with
  | [] => false
  | p :: _ => p.noRun || p.bad.isSome ||
      (!(y.slice (queueSlice q)).accDone && decide ((y.slice (queueSlice q)).egress = []) &&
        (!y.entryExists p.egEntry true || (y.egressScribe (queueSlice q) p).isSome))

/-- The queue a port's scheduler selects (R232). Only a child with a queue that may be selected beneath it is eligible
(DEDUCED, log 40). -/
def State.select (s : State) (port : Nat) : State × Option Nat :=
  if s.peakOk (port / 64) (portNode port) = false then (s, none)
  else
    let y := s.egressTurn (port / 64)
    match ((s.portQueues port).filter s.queueReady).filter y.egressChance with
    | [] => (s, none)
    | qs => s.pickDown (port / 64) 4 0 (portNode port) qs

/-- A packet selected through a node takes FRAME_LEN + SHAPE_ADJ bytes from both its buckets (R233). -/
def State.chargeNode (s : State) (slice off : Nat) (n : Int) : State :=
  let b := s.bucket slice off
  s.setBucket slice off ⟨b.c - 6250 * n, b.p - 6250 * n⟩

/-- Charge the deficits and buckets of a selected packet's path (R232, R233). -/
def State.charge (s : State) (port q len : Nat) : State :=
  let sl := port / 64
  let path := s.queuePath q
  let adj : BitVec 8 := (s.tmWord sl (portNode port) 0).extractLsb' 0 8
  let n : Int := (len : Int) + adj.toInt
  let s1 := path.foldl (fun x o => x.setDeficit sl o (x.deficitOf sl o - len)) s
  (portNode port :: path.take 3).foldl (fun x o => x.chargeNode sl o n) s1

/-- A child with nothing left loses its deficit (DEDUCED, log 37). -/
def State.forgetIdle (s : State) (port q : Nat) : State :=
  let sl := port / 64
  let held := (s.portQueues port).filter (fun x => decide ((s.queue x).pkts ≠ []))
  ((s.queuePath q).zipIdx).foldl (fun x a =>
    if held.any (fun y => (s.queuePath y).getD a.2 0 == a.1) then x else x.setDeficit sl a.1 0) s

/-- The first packet of a queue leaves it. -/
def State.popQueue (s : State) (q : Nat) : State :=
  let x := s.queue q
  match x.pkts with
  | [] => s
  | p :: rest => (s.setQueue q { x with pkts := rest, head := x.head - p.cells }).settleQueue q false

/-- DEQUEUE of a network port: the selected packet goes to the egress dispatcher, or straight to transmit where it takes
no egress run (R148, R153). A packet marked for a drop leaves its queue now, uncharged. -/
def State.dequeuePort (s : State) (port : Nat) (dt : Word64) : State :=
  match s.select port with
  | (s1, none) => s1
  | (s1, some q) =>
    match (s1.queue q).pkts with
    | [] => s
    | p :: _ =>
      let sl := port / 64
      match p.bad with
      | some code => (s.popQueue q).dropIn p sl code
      | none =>
        let (n, s2) := ((s1.charge port q p.frameLen).popQueue q).fresh
        let p1 := { ((p.setSlip 0x00 2 p.frameLen).setSlip 0x70 4 (s.stampNs dt)) with deq := n }
        let s3 := s2.forgetIdle port q
        let x := s3.slice sl
        s3.setSlice sl (if p.noRun then { x with done := x.done ++ [p1] } else { x with egress := x.egress ++ [p1] })

/-! ### Host ports (R152, R237, R327, R338, R339) -/

/-- A host port. -/
def State.hp (s : State) (i : Nat) : HostPort := if i = 0 then s.dcp.hp0 else s.dcp.hp1

/-- Replace a host port. -/
def State.setHp (s : State) (i : Nat) (x : HostPort) : State :=
  if i = 0 then { s with dcp := { s.dcp with hp0 := x } } else { s with dcp := { s.dcp with hp1 := x } }

/-- The six bytes of a MAC address held in a pair of registers (R338). -/
def State.macBytes (s : State) (lo hi : Nat) : List Byte :=
  beBytes 6 ((s.cfg hi).toNat % 65536 * 2 ^ 32 + (s.cfg lo).toNat)

/-- The punt header (Table 5.3). -/
def puntHeader (p : Pkt) (k : PuntKind) : List Byte :=
  let b := fun o => slipByte p.slip o
  let be := fun o n => beBytes n (slipGet p.slip o n)
  let type := match k with
    | .ingress => 1 | .egress => 2 | .mirror => 3 | .fwd => 4
  let flags := b2n p.trunc + 2 * b2n (p.rxFlag 3) + 4 * b2n (p.rxFlag 0) + 8 * b2n (p.rxFlag 2)
  let outPort := if k = .egress ∨ (k = .mirror ∧ p.puntKind = some .egress) then p.destPort else 0xFFFF
  [1, BitVec.ofNat 8 type, BitVec.ofNat 8 flags, b 0x07] ++ be 0x02 2 ++ beBytes 2 outPort ++ be 0x48 2 ++
    [BitVec.ofNat 8 (p.session.getD 0xFF), b 0x04] ++ be 0x08 4 ++ be 0x0C 4 ++ be 0x44 4 ++ beBytes 2 p.origLen ++
    [b 0x06, 0] ++ (List.range 4).map (fun i => b (0x50 + i))

/-- The trailer of R327. -/
def State.rxTrailer (s : State) (p : Pkt) (k : PuntKind) : List Byte :=
  if k = .mirror ∨ 512 ≤ p.inPort ∨ s.cfgB (Reg.timePort p.inPort 0) 30 = false then []
  else
    match p.rxStamp with
    | none => [0, 0, 0, 0, 0, 0, 0, 0]
    | some (t, _, d) => beBytes 4 (t.toNat / 2 ^ 32) ++ [BitVec.ofNat 8 (t.toNat / 2 ^ 24), BitVec.ofNat 8 (1 + 2 * d), 0, 0]

/-- The frame that carries a packet to a host port, without its FCS (R338, R339). -/
def State.hostFrame (s : State) (hp : Nat) (p : Pkt) : List Byte :=
  let k := if p.session.isSome then .mirror else p.puntKind.getD .fwd
  s.macBytes (Reg.hpPeerLo hp) (Reg.hpPeerHi hp) ++ s.macBytes (Reg.hpMacLo hp) (Reg.hpMacHi hp) ++
    beBytes 2 (s.cfgF Reg.dcpEtype 15 0) ++ puntHeader p k ++ p.data ++ s.rxTrailer p k

/-- DEQUEUE of a host port: its highest class that holds a packet. -/
def State.dequeueHost (s : State) (hp : Nat) : State :=
  if (s.hp hp).state ≠ .up ∨ (s.port (512 + hp)).wire ≠ [] then s
  else
    match (List.range 8).reverse.find? (fun c => decide (s.hostQueue hp c ≠ [])) with
    | none => s
    | some c =>
      match s.hostQueue hp c with
      | [] => s
      | p :: rest =>
        let s1 := s.setHostQueue hp c rest
        match p.bad with
        | some code => s1.dropHub p code
        | none => s1.setPort (512 + hp) { s1.port (512 + hp) with wire := [s1.loadPkt 0 p] }

/-- DEQUEUE (R232, R237): a network port in UP and in service, or host port 512 or 513. -/
def execDequeue (port : Nat) (dt : Word64) (s : State) : Res :=
  if s.flowing = false then .next s
  else if port = 512 ∨ port = 513 then .next (s.dequeueHost (port - 512))
  else if (s.port port).state = .up ∧ s.inService port = true then .next (s.dequeuePort port dt)
  else .next s

/-- At a boundary a bucket gains its rate, up to its burst (R233). A level above the burst stays. -/
def fill (level : Int) (rate burst : Nat) : Int :=
  let top : Int := 64 * 6250 * burst
  if top ≤ level then level else min top (level + rate)

/-- At a boundary the shapers of every node that has a rate gain (R233). -/
def State.fillShapers (s : State) : State :=
  s.dp.foldl (fun x e =>
    let off := caOff e.1
    let blk := caBlock e.1
    if 4 ≤ caNode e.1 ∧ (blk = 0x18 ∨ blk = 0x19) ∧ 0x40000 ≤ off ∧ off < 0x7C000 ∧ (off % 16 = 4 ∨ off % 16 = 8) then
      let sl := 2 * (caNode e.1 - 4) + (blk - 0x18)
      let node := off - off % 16
      let w := x.tmWord sl node 3
      let b := x.bucket sl node
      let rate := bits e.2 27 0
      if rate = 0 then x
      else if off % 16 = 8 then x.setBucket sl node { b with p := fill b.p rate (bits w 15 0) }
      else if node < 0x78000 then x.setBucket sl node { b with c := fill b.c rate (bits w 31 16) }
      else x
    else x) s

/-! ### Ports that leave service (R236) -/

/-- A copy waits for a queue of a local port. -/
def State.copyToward (s : State) (port : Nat) (c : Copy) : Bool := s.sysPort c.port == .here port

/-- A port leaves service: its queues are to be flushed, and residue copies toward it are dropped at once. -/
def State.portDown (s : State) (port : Nat) : State :=
  if s.tm.flushing.contains port then s
  else
    let s1 := { s with tm := { s.tm with flushing := s.tm.flushing ++ [port] } }.setResidue
      (s.tm.residue.filter (fun c => !s.copyToward port c))
    let s2 := (s.tm.residue.filter (s.copyToward port)).foldl (fun x c => x.dropHub c.pkt 0x56) s1
    s2.setEv (Reg.tmEvents (port / 64)) 1

/-- Drop the first packet of a queue in a flush. -/
def State.flushOne (s : State) (q : Nat) : State :=
  match (s.queue q).pkts with
  | [] => s
  | p :: rest => (s.pullQueued q [] p rest).dropIn p (queueSlice q) (p.bad.getD 0x56)

/-- Packets that a slice has flushed in this tick. -/
def State.flushedOf (s : State) (slice : Nat) : Nat := SMap.find 0 s.tm.flushed slice

/-- Flush packets of a port within the slice's 256 of this tick; n bounds the packets. -/
def State.flushGo (s : State) (port : Nat) : Nat → State
  | 0 => s
  | n + 1 =>
    let sl := port / 64
    if 256 ≤ s.flushedOf sl then s
    else
      match (s.portQueues port).find? (fun q => decide ((s.queue q).pkts ≠ [])) with
      | none => s
      | some q =>
        let s1 := { s with tm := { s.tm with flushed := SMap.set 0 s.tm.flushed sl (s.flushedOf sl + 1) } }
        (s1.flushOne q).flushGo port n

/-- A port is out of service by its octet or by its node. -/
def State.portGone (s : State) (port : Nat) : Bool :=
  !(decide ((s.port port).state = .up) || decide ((s.port port).state = .hold)) || !s.portNodeEn port

/-- PORT_FLUSH (R236): a port that has left service drops up to 256 queued packets of this tick. -/
def execPortFlush (port : Nat) (s : State) : Res :=
  if s.tm.flushing.contains port then .next (s.flushGo port 256)
  else if s.portExists port && s.portGone port && decide (s.portQueues port ≠ []) then
    .next ((s.portDown port).flushGo port 256)
  else .next s

/-- Every queue of a port is empty. -/
def State.portEmpty (s : State) (port : Nat) : Bool := (s.portQueues port).all (fun q => decide ((s.queue q).pkts = []))

/-- PORT_FLUSH_END (R236): every queue of the port is empty, and the flush is complete; the port returns to service at a
boundary. -/
def execPortFlushEnd (port : Nat) (s : State) : Res :=
  if s.tm.flushing.contains port && s.portEmpty port && !s.tm.flushEnd.contains port then
    .next { s with tm := { s.tm with flushEnd := s.tm.flushEnd ++ [port] } }
  else .next s

/-- At a boundary a port whose flush is complete returns to service, if it is UP and its node enabled (R236). -/
def State.flushTick (s : State) : State :=
  let back := s.tm.flushEnd.filter (fun p =>
    s.portExists p && decide ((s.port p).state = .up) && s.portNodeEn p && s.portEmpty p)
  { s with tm := { s.tm with
    flushing := s.tm.flushing.filter (fun p => !back.contains p)
    flushEnd := s.tm.flushEnd.filter (fun p => !back.contains p) } }

end Sys2Proof.Machine
end

