-- ==== Sys2Proof/Machine/Replication.lean ====
section
/-! DEFINITION. The replication engine: multicast copies, the residue and mirror copies (chapter 8, sections 9 and 10). -/

namespace Sys2Proof.Machine

/-! ### Copies (R244 to R247) -/

/-- Copies made in one tick (R245). -/
def copyLimit : Nat := 2048

/-- One more copy has been made in this tick. -/
def State.countCopy (s : State) : State := { s with tm := { s.tm with copies := s.tm.copies + 1 } }

/-- One copy more shares the cells of an original. -/
def State.share (s : State) (o : Nat) : State :=
  { s with tm := { s.tm with
    shared := s.tm.shared.map (fun (x : Nat × Shared) => if x.1 = o then (x.1, { x.2 with refs := x.2.refs + 1 }) else x) } }

/-- The number that stands for the place a copy waits for: its queue, or its virtual output queue (log 41). -/
def State.copyPlace (s : State) (p : Pkt) (sysport queue : Nat) : Nat :=
  match s.sysPort sysport with
  | .remote dev r => 2 ^ 20 + voqKey p.slice dev (r / 64) p.tc
  | _ => queue

/-- RESIDUE_WAIT. -/
def State.residueWait (s : State) : Nat := s.cfgF Reg.replCfg 19 0

/-- Add to a counter of the local port that a system port is; the counters of any other number stay zero (R355). -/
def State.addPortCtr (s : State) (sysport c : Nat) : State :=
  match s.sysPort sysport with
  | .here p => if s.portExists p then s.addCtr (portCtr p c) 1 else s
  | _ => s

/-- A copy is dropped with RESIDUE_EXPIRED after its wait: counted for its group and its port too (R247). -/
def State.expire (s : State) (c : Copy) : State :=
  let s1 := ((s.dropHub c.pkt 0x53).setEv Reg.replEvents 0).addCtr (0x28000 + c.group) 1
  s1.addPortCtr c.port 6

/-- A copy joins the residue; it expires at once with RESIDUE_WAIT 0, and is dropped where the residue is full (R246, R247), which
counts for its group but not as an expiry toward its port (Table 14.1). -/
def State.joinResidue (s : State) (c : Copy) : State :=
  if s.residueWait = 0 then s.expire c
  else if 65536 ≤ s.tm.residue.length then
    ((s.dropHub c.pkt 0x53).setEv Reg.replEvents 1).addCtr (0x28000 + c.group) 1
  else s.setResidue (s.tm.residue ++ [c])

/-- Whether an attempt to enqueue a copy placed it, dropped it for good, or leaves it to the residue. -/
inductive CopyOut where
  | done | later
  deriving DecidableEq, Repr

/-- The first cell of a copy, from the pool of REPL_CFG in the quadrant of its egress slice (R197, R245). -/
def State.firstCell (s : State) (slice : Nat) (p : Pkt) : State × Option Pkt :=
  match s.cellsFor (s.cfgF Reg.replCfg 31 28) (slice / 2) 1 1 1 with
  | (s1, some bs) => (s1.storePkt { p with bufs := bs }, some { p with bufs := bs })
  | (s1, none) => (s1, none)

/-- The replication engine is a source of the core: the cells of a copy that its queue has taken are numbered in the copy's stream
and sprayed (R217, R219). The manual gives them no resequencer context; they meet none (DESIGN CHOICE, log 42). -/
def State.sprayCopy (s : State) (p : Pkt) (dstSl : Nat) : State :=
  let key := 65536 + ctxOf 0 s.devId p.slice dstSl p.tc
  let (q, s1) := s.takeSeq key p.cells
  (List.range p.cells).foldl (fun x i => x.sprayCell 12
    { pkt := p.id, first := decide (i = 0), last := decide (i + 1 = p.cells), expr := s.express p.tc, tc := p.tc,
      seq := q + BitVec.ofNat 16 i, srcDev := s.devId, srcSl := p.slice, dstSl := dstSl, kind := 0, plane := 0, tick := 0,
      buf := p.bufs[i]?, copy := true, data := [] }) s1

/-- Offer a copy to its queue or virtual output queue (R245, R246). A copy to a host port's number names no port (DEDUCED,
log 42). -/
def State.offerCopy (s : State) (c : Copy) (again : Bool) : State × CopyOut :=
  let p := c.pkt
  match p.bad with
  | some code => (s.dropHub p code, .done)
  | none =>
    match s.sysPort c.port with
    | .remote dev r =>
      let k := voqKey p.slice dev (r / 64) p.tc
      if s.voqFull k p then (s, .later)
      else
        match s.firstCell p.slice p with
        | (s1, none) => (s1, .later)
        | (s1, some q) => (s1.voqPut k dev r q, .done)
    | .here _ =>
      let q := p.destQueue
      match s.arrivalTests q p again with
      | (s1, some 0x51) => (s1, .later)
      | (s1, some code) => (s1.dropPkt p (queueSlice q) code (queueSlice q / 2), .done)
      | (s1, none) =>
        match s1.firstCell (queueSlice q) p with
        | (s2, none) => (s2, .later)
        | (s2, some y) => ((s2.enqueueOk q y).sprayCopy y (queueSlice q), .done)
    | _ => (s.dropHub p 0x56, .done)

/-- An older copy for the same place waits in the residue. -/
def State.olderWaits (s : State) (c : Copy) : Bool :=
  let k := s.copyPlace c.pkt c.port c.queue
  s.tm.residue.any (fun x => s.copyPlace x.pkt x.port x.queue == k)

/-- A new copy: offered, unless an older one waits for the same place. -/
def State.newCopy (s : State) (c : Copy) : State :=
  if s.olderWaits c then s.joinResidue c
  else
    match s.offerCopy c false with
    | (s1, .done) => s1
    | (s1, .later) => s1.joinResidue c

/-- The copy of an original for a replication entry, or none (R244, R245). -/
def State.copyOf (s : State) (j : ReplJob) (e id : Nat) : Option Copy :=
  let w0 := s.cfg (Reg.replEntry e 0)
  let w1 := s.cfg (Reg.replEntry e 1)
  let sp := bits w1 9 0
  let q := bits w0 17 0
  if bit w1 31 = false ∨ (bit w0 31 = true ∧ sp = j.pkt.inPort) then none
  else
    let slip := slipSet (slipSet (slipSet j.pkt.slip 0x30 4 (2 ^ 28 + sp * 2 ^ 18 + q)) 0x3E 1 (bits w0 29 24)) 0x4C 1 2
    some ⟨{ j.pkt with id := id, slip := slip, bufs := [], orig := some j.pkt.id, group := some j.group }, q, sp, j.group, j.born⟩

/-- Make the copies of a job from its next entry on, at most n, within the tick's limit. -/
def State.makeCopies (s : State) (j : ReplJob) (first count : Nat) : Nat → Nat → State × Nat
  | 0, i => (s, i)
  | n + 1, i =>
    if count ≤ i ∨ copyLimit ≤ s.tm.copies then (s, i)
    else
      let (id, s0) := s.fresh
      match s0.copyOf j (first + i) id with
      | none => s.makeCopies j first count n (i + 1)
      | some c => (((s0.share j.pkt.id).countCopy).newCopy c).makeCopies j first count n (i + 1)

/-- Start a job: the original's cells become shared, the job holding one share. -/
def State.openShare (s : State) (p : Pkt) : State :=
  if s.tm.shared.any (fun x => x.1 == p.id) then s
  else { s with tm := { s.tm with
    shared := s.tm.shared.insert p.id ⟨p.bufs, 1, p.slice, if p.rxFlag 1 then 1023 else p.rxPort, p.tc⟩ } }

/-- REPLICATE (R245): the engine makes the copies of the oldest original, up to the tick's 2,048; what is left waits for the
next tick. -/
def State.replicate (s : State) : State :=
  match s.tm.jobs with
  | [] => s
  | j :: rest =>
    let s0 := { s with tm := { s.tm with jobs := rest } }
    let g := s.cfg (Reg.replGroup j.group)
    let count := bits g 11 0
    match j.pkt.bad with
    | some code => if j.entry = 0 then s0.dropHub j.pkt code else s0.unshare j.pkt.id
    | none =>
      if count = 0 ∧ j.entry = 0 then s0.dropHub j.pkt 0x39
      else
        let j := if j.entry = 0 then { j with pkt := s0.loadPkt 0 j.pkt } else j
        let (s1, i) := (s0.openShare j.pkt).makeCopies j (bits g 31 16) count (count - j.entry) j.entry
        if i < count then
          { s1 with tm := { s1.tm with jobs := { j with entry := i, pkt := { j.pkt with bufs := [] } } :: s1.tm.jobs } }
        else s1.unshare j.pkt.id

/-- Every copy of the residue is retried in order of age; none passes an older one for the same place (R246). -/
def State.residueRetry (s : State) : State :=
  s.tm.residue.foldl (fun x c =>
    if x.olderWaits c then x.setResidue (x.tm.residue ++ [c])
    else
      match x.offerCopy c true with
      | (y, .done) => y
      | (y, .later) => y.setResidue (y.tm.residue ++ [c])) { s with tm := { s.tm with residue := [] } }

/-- The retry of the residue, once a tick and before the first new copy of the tick (R246). -/
def State.retryTurn (s : State) : State :=
  if s.tm.retried then s
  else
    let s1 := s.residueRetry
    { s1 with tm := { s1.tm with retried := true } }

/-- RESIDUE_RETRY (R246). -/
def execResidueRetry (s : State) : Res := if s.flowing then .next s.retryTurn else .next s

/-- REPLICATE (R245): after the retry of the residue, and not once the turn of the tick's mirror copies has come (R250). -/
def execReplicate (s : State) : Res := if s.flowing && !s.tm.mirTurn then .next s.retryTurn.replicate else .next s

/-- RESIDUE_EXPIRED (R247): the oldest copy that has waited RESIDUE_WAIT ticks is dropped. -/
def execResidueExpired (s : State) : Res :=
  match s.tm.residue.find? (fun c => decide (c.born + s.residueWait ≤ s.now)) with
  | none => .next s
  | some c => .next ((s.setResidue (s.tm.residue.erase c)).expire c)

/-! ### Mirror copies (R248 to R250) -/

/-- Bytes kept of a frame by TRUNC. -/
def truncTo (t : Nat) : Nat := min 512 (max 64 t)

/-- The copy of a mirrored packet. -/
def State.mirrorPkt (s : State) (m : Nat) (p : Pkt) : Pkt :=
  let w0 := s.mirWord m 0
  let t := bits (s.mirWord m 1) 9 0
  let cut := decide (t ≠ 0) && decide (truncTo t < p.data.length)
  let dp := bits w0 27 18
  let slip := slipSet (slipSet p.slip 0x07 1 16) 0x30 4 (2 ^ 28 + dp * 2 ^ 18 + bits w0 17 0)
  { p with
    slip := if 512 ≤ dp then slipSet p.slip 0x07 1 16 else slip
    data := if cut then p.data.take (truncTo t) else p.data
    ended := p.ended || cut
    trunc := cut
    origLen := p.frameLen
    puntKind := some (if bits w0 29 28 = 1 then .egress else .mirror) }

/-- A mirror copy is shed (R250): counted at the hub, and at its port. -/
def State.shed (s : State) (dp : Nat) (p : Pkt) : State :=
  ((s.dropHub p 0x54).setEv Reg.mirEvents 0).addPortCtr dp 7

/-- Depth in cells of the place a session's copies go to. -/
def State.mirDepth (s : State) (dp q : Nat) (p : Pkt) : Nat :=
  if 512 ≤ dp then cellSum (s.hostQueue (dp - 512) 0)
  else
    match s.sysPort dp with
    | .remote dev r => cellSum (s.voqAt (voqKey p.slice dev (r / 64) p.tc)).pkts
    | _ => (s.queue q).depth

/-- The slice at which a mirror copy leaves: that of its queue, or for a remote or host port the one that the packet is in
(R197; DEDUCED, log 42). -/
def State.mirSlice (s : State) (dp q : Nat) (p : Pkt) : Nat :=
  match s.sysPort dp with
  | .here _ => queueSlice q
  | _ => p.slice

/-- Make one mirror copy, or shed it (R249, R250). -/
def State.mirrorMake (s : State) (m : Nat) (src : Pkt) : State :=
  let p := s.mirrorPkt m src
  let w0 := s.mirWord m 0
  let dp := bits w0 27 18
  let q := bits w0 17 0
  if copyLimit ≤ s.tm.copies ∨ s.cfgF (Reg.mirSession m 2) 19 0 ≤ s.mirDepth dp q p then s.shed dp p
  else
    match s.cellsFor (bits (s.mirWord m 1) 15 12) (s.mirSlice dp q p / 2) 5 1 1 with
    | (s1, none) => s1.shed dp p
    | (s1, some bs) =>
      let (id, s0) := s1.fresh
      let y := { p with id := id, bufs := bs }
      let s2 := s0.countCopy.storePkt y
      if dp = 512 ∨ dp = 513 then s2.hostIn (dp - 512) 0 y
      else if 512 ≤ dp then s2.dropHub y 0x56
      else
        match s2.sysPort dp with
        | .remote dev r => s2.voqIn y.slice dev r y
        | _ =>
          match s2.arrivalTests q y false with
          | (s3, some code) => s3.dropQueued y (queueSlice q) code
          | (s3, none) => (s3.enqueueOk q y).sprayCopy y (queueSlice q)

/-- MIRROR_COPY (R249, R250): the next copy that a session has taken. Mirror copies come after every multicast copy of the tick:
while one can still be made they wait, and afterwards no more are made in it. -/
def execMirrorCopy (s : State) : Res :=
  match s.tm.mirJobs with
  | [] => .next s
  | j :: rest =>
    if s.tm.jobs ≠ [] ∧ s.tm.mirTurn = false ∧ s.tm.copies < copyLimit then .next s
    else
      let s1 := { s with tm := { s.tm with mirJobs := rest, mirTurn := true } }
      match j.pkt.bad with
      | some code => .next (s1.dropHub j.pkt code)
      | none => .next (s1.mirrorMake j.session j.pkt)

end Sys2Proof.Machine
end

