-- ==== Sys2Proof/Machine/Transmit.lean ====
section
/-! DEFINITION. Transmit: padding, time-stamp updates, the cipher point of egress and the completion of a frame (R148, R304,
R328 to R331, R358, R362). -/

namespace Sys2Proof.Machine

/-! ### One-step and transparent-clock updates (R326 to R330) -/

/-- A frame whose transmission on its port begins dt after the last boundary, with its transmit stamp: O plus TX_ADJ, to 1/256
ns (R326). -/
def State.stampTx (s : State) (p : Pkt) (dt : Word64) : Pkt :=
  let adj : BitVec 16 := (s.cfg (Reg.timePort p.destPort 1)).extractLsb' 16 16
  { p with
    txO := s.oAt dt
    txTick := s.now
    txAt := (s.oAt dt + BitVec.ofInt 64 (adj.toInt * 2 ^ 24)) &&& ~~~(0xFFFFFF : BitVec 64) }

/-- HDR_OFF i of a packet's call slip. -/
def Pkt.hdrOff (p : Pkt) (i : Nat) : Nat := (slipByte p.slip (0x10 + i)).toNat

/-- The offset of the PTP header of a packet that R328 updates, apart from the receive record and TC_EN. A header that runs
past the frame is none (DEDUCED, log 43). -/
def State.ptpAt (s : State) (p : Pkt) : Option Nat :=
  let h := p.hdrOff (s.cfgF Reg.timeCfg 12 8)
  if h ≠ 0xFF ∧ h + 16 ≤ p.data.length ∧ (p.data.getD (h + 1) 0).toNat % 16 = 2 ∧ (p.data.getD h 0).toNat % 16 ≤ 3 then
    some h
  else none

/-- What an update would add to the correctionField: none where the frame does not qualify, and none inside where
Δ is 2^31 ns or more (R328, R329). -/
def State.ptpDelta (s : State) (port : Nat) (p : Pkt) : Option (Option Int) :=
  let t := p.txAt
  if p.oneStep then
    let ref := beNat ((List.range 4).map (fun i => slipByte p.slip (0x50 + i)))
    let d := t - BitVec.ofNat 64 (ref * 2 ^ 32)
    if 2 ^ 63 ≤ d.toNat then some none else some (some ((d.toNat / 2 ^ 16 : Nat) : Int))
  else
    match p.rxStamp with
    | none => none
    | some (r, j, _) =>
      if s.cfgB (Reg.timePort port 0) 31 then some (some (Int.tdiv ((t - r) - (s.time.j - j)).toInt 65536)) else none

/-- The one's-complement sum of bytes that begin at an offset, as words aligned to another. -/
def alignedSum (base o : Nat) (bs : List Byte) : Nat := onesSum 0 ((if (o + base) % 2 = 1 then [0] else []) ++ bs)

/-- The UDP checksum corrected for the bytes at o changed from old to new (RFC 1624); a zero checksum stays zero (R330). -/
def State.udpFix (s : State) (p : Pkt) (o : Nat) (old new : List Byte) (d : List Byte) : List Byte :=
  let u := p.hdrOff (s.cfgF Reg.timeCfg 4 0)
  let c := beNat (slice0 d (u + 6) 2)
  if u = 0xFF ∨ c = 0 ∨ d.length < u + 8 then d
  else
    let x := (0xFFFF - c) + (0xFFFF - alignedSum u o old) + alignedSum u o new
    putAt d (u + 6) (beBytes 2 (0xFFFF - fold16 64 x))

/-- The frame with n added to its correctionField, in units of 2^-16 ns. -/
def State.ptpApply (s : State) (p : Pkt) (h : Nat) (n : Int) : Pkt :=
  let old := slice0 p.data (h + 8) 8
  let new := beBytes 8 (BitVec.ofNat 64 (beNat old) + BitVec.ofInt 64 n).toNat
  { p with data := s.udpFix p (h + 8) old new (putAt p.data (h + 8) new) }

/-- The time-stamp update of a frame at transmit: made, skipped under a cipher pass or a large Δ, or not called for
(R328 to R330). -/
def State.ptpUpdate (s : State) (port : Nat) (p : Pkt) (ciphered : Bool) : State × Pkt :=
  match s.ptpAt p, s.ptpDelta port p with
  | some h, some d =>
    match d, ciphered with
    | some n, false => (s, s.ptpApply p h n)
    | _, _ => (s.setEv Reg.timeEvents 4, p)
  | _, _ => (s, p)

/-! ### The passes a frame takes (R304) -/

/-- The pass a packet at a cipher point takes next. -/
inductive CipPass where
  | none
  | esp (ctx : Nat)
  | mac (ctx : Nat)
  | bypass (ctx : Nat)
  deriving DecidableEq, Repr

/-- The ESP pass that a packet's SA names, if it has not been made. -/
def State.espPass (s : State) (sl : Nat) (j : CipJob) : Option Nat :=
  match j.pkt.saIndex with
  | .none => .none
  | some i => if !j.espDone && saEsp (s.saCtx sl i) then some i else .none

/-- The pass of TX_SA on a port with TX_EN; a TX_SA that is no outbound MACsec context makes no pass, and a BYPASS one counts
the frame (DEDUCED, log 44). -/
def State.txSaPass (s : State) (sl port : Nat) : CipPass :=
  if s.cfgB (Reg.cipPortCfg sl (port % 64)) 28 = false then .none
  else
    let i := s.cfgF (Reg.cipPortSa sl (port % 64)) 14 0
    let c := s.saCtx sl i
    if saMac c && !saIn c then .mac i else if saMode c = 0 then .bypass i else .none

/-- The pass that a packet takes next at its cipher point (R304). -/
def State.nextPass (s : State) (sl : Nat) (j : CipJob) : CipPass :=
  match s.espPass sl j with
  | some i => .esp i
  | .none =>
    if j.recirc then .none
    else
      match j.pkt.saIndex with
      | .none => s.txSaPass sl j.pkt.destPort
      | some i => if saMac (s.saCtx sl i) && !saIn (s.saCtx sl i) then .mac i else s.txSaPass sl j.pkt.destPort

/-- The SA of a packet at egress names a context that makes no pass: an inbound MACsec one is misused, a BYPASS one
counts the frame (R304, Table 11.1). -/
def State.noteSa (s : State) (sl : Nat) (p : Pkt) : State × Pkt :=
  match p.saIndex with
  | .none => (s, p)
  | some i =>
    let c := s.saCtx sl i
    if saMac c && saIn c then (s.saMisuse sl, p) else if saMode c = 0 then s.bypass sl i p else (s, p)

/-! ### Transmit (R148) -/

/-- A frame goes to the wire of its port, dt after the last boundary. -/
def State.toWire (s : State) (p : Pkt) (dt : Word64) : State :=
  let x := s.port p.destPort
  s.setPort p.destPort { x with wire := x.wire ++ [s.stampTx p dt] }

/-- A packet whose passes are made goes to its wire, or after a pass of the recirculation point to its queue. -/
def State.afterPasses (s : State) (sl : Nat) (j : CipJob) (dt : Word64) : State :=
  match s.nextPass sl j with
  | .none => if j.recirc then ((s.storePkt j.pkt).recircIn j.pkt).releaseHand else s.toWire j.pkt dt
  | .bypass i => (s.bypass sl i j.pkt).1.toWire (s.bypass sl i j.pkt).2 dt
  | _ => s.setSlice sl { s.slice sl with cip := j :: (s.slice sl).cip }

/-- Port egress mirroring: the frame as committed by the egress run (R248). -/
def State.mirrorTx (s : State) (p : Pkt) : State :=
  let m := s.cfg (Reg.mirPort p.destPort)
  if bit m 15 then s.mirrorSee (bits m 12 8) 1 p else s

/-- Begin the transmission of a packet (R148, R304, R328). -/
def State.transmitPkt (s : State) (sl : Nat) (p : Pkt) (dt : Word64) : State :=
  match p.bad with
  | some code => s.dropIn p sl code
  | none =>
    let p0 := s.loadPkt 0 p
    let (s1, p1) := (s.mirrorTx p0).noteSa sl (s.stampTx { p0 with data := if p.ended then padFrame p0.data else p0.data } dt)
    let j : CipJob := ⟨p1, false, false⟩
    match s1.nextPass sl j with
    | .none =>
      let r := s1.ptpUpdate p1.destPort p1 false
      r.1.toWire r.2 dt
    | .bypass i =>
      let r := s1.ptpUpdate p1.destPort p1 false
      (r.1.bypass sl i r.2).1.toWire (r.1.bypass sl i r.2).2 dt
    | _ =>
      let r := s1.ptpUpdate p1.destPort p1 true
      r.1.setSlice sl { r.1.slice sl with cip := (r.1.slice sl).cip ++ [{ j with pkt := r.2 }] }

/-- The packets of a port that left its queues and have not yet begun transmission. -/
def State.beforeWire (s : State) (sl port : Nat) : List Pkt :=
  let l := (s.slice sl).egress ++ (s.slice sl).done ++ s.threads.flatMap (fun x =>
    (if x.2.egress then x.2.pkt.toList else []) ++ (if x.2.bindEg then x.2.binding.toList else []))
  l.filter (fun p => decide (p.destPort = port))

/-- A packet may begin transmission: nothing of its port dequeued before it is still to come, and its port sends nothing
and waits for no cipher pass (R148: packets leave each port in dequeue order). -/
def State.mayTransmit (s : State) (sl : Nat) (p : Pkt) : Bool :=
  (s.beforeWire sl p.destPort).all (fun x => decide (p.deq ≤ x.deq)) && decide ((s.port p.destPort).wire = []) &&
  !((s.slice sl).cip.any (fun j => !j.recirc && decide (j.pkt.destPort = p.destPort)))

/-- A port sends no frame any more: it is in neither UP nor HOLD, or in far-end loopback (R259, R265). -/
def State.sendsNone (s : State) (port : Nat) : Bool :=
  !((s.port port).state == .up || (s.port port).state == .hold) || decide (s.portLoop port = 2)

/-- TRANSMIT (R148): the first packet of a slice that may begin transmission and whose port is not in HOLD (R259). One that left
its queue before its port went down is dropped with PORT_DOWN (DEDUCED, log 92). -/
def execTransmit (slice : Fin 8) (dt : Word64) (s : State) : Res :=
  let sl := slice.val
  let x := s.slice sl
  match x.done.find? (fun p => s.mayTransmit sl p && (s.port p.destPort).state != .hold) with
  | none => .next s
  | some p =>
    let s1 := s.setSlice sl { x with done := x.done.erase p }
    if s.sendsNone p.destPort then .next (s1.dropIn p sl (p.bad.getD 0x56)) else .next (s1.transmitPkt sl p dt)

/-! ### Completion (R331, R358, R362, Table 14.2) -/

/-- The bin of a latency in ns (R362). -/
def latencyBin (l : Nat) : Nat := if l < 10 then 0 else min 31 (Nat.log2 (l / 5))

/-- The latency of a packet, from its admission stamp to the start of its transmission (R362). -/
def Pkt.latency (p : Pkt) : Nat :=
  let d := (p.txTick + 2 ^ 32 - slipGet p.slip 0x0C 4) % 2 ^ 32
  if d < 2 ^ 24 then ((p.txO.toNat / 2 ^ 32) + 2 ^ 32 - slipGet p.slip 0x08 4) % 2 ^ 32 else d * 160

/-- Count one packet in its histogram (R362). -/
def State.addHist (s : State) (port : Nat) (p : Pkt) : State :=
  if p.admitted = false then s
  else
    let i := 256 * port + 32 * p.tc + latencyBin p.latency
    { s with ctrs := { s.ctrs with hist := SMap.set 0 s.ctrs.hist i (SMap.find 0 s.ctrs.hist i + 1) } }

/-- The words of a timestamp queue entry (Table 12.2). -/
def Tsq.words (e : Tsq) : List Word32 :=
  [BitVec.ofNat 32 (e.id.toNat * 2 ^ 16 + e.port % 1024), e.ns, e.sub.zeroExtend 32]

/-- A departure appends an entry to the timestamp queue, or its stamp is lost (R331). -/
def State.tsEntry (s : State) (port : Nat) (p : Pkt) : State :=
  match p.tsId with
  | none => s
  | some id =>
    if 64 ≤ s.time.tsq.length then (s.bump Reg.tsqLost 1).setEv Reg.tsqStatus 31
    else
      let t := p.txAt
      let e : Tsq := ⟨id, port, nsOf t, BitVec.ofNat 8 (t.toNat / 2 ^ 24)⟩
      let s1 := { s with time := { s.time with tsq := s.time.tsq ++ [e] } }
      if s.cfgB Reg.timeCfg 31 then s1.notice 0x0040 (e.words.flatMap (fun w => beBytes 4 w.toNat)) else s1

/-- The port counters of a frame sent (Table 14.2). -/
def State.countTx (s : State) (port : Nat) (p : Pkt) : State :=
  let s1 := ((s.addCtr (portCtr port 3) 1).addCtr (portCtr port 4) p.len).addCtr (portCtr port (8 + p.tc)) 1
  if p.stomp then s1.addCtr (portCtr port 5) 1 else s1

/-- What a port's transmitter sends goes to its line, or in near-end PMA and PCS loopback to its own receiver (R265); when in
the tick it arrives there is a FREE VALUE (log 93). -/
def State.lineOut (s : State) (port : Nat) (p : Pkt) : State :=
  if s.looped port = false then s.emit (.frame port p.data p.stomp)
  else if s.rxUp port = false ∨ s.rx.any (fun x => x.1 == port) = true then s
  else (s.frameIn port p.data (if p.stomp then .fcs else .good) s.eventDt 0).nextFree

/-- A frame of a network port has left. -/
def State.completeNet (s : State) (port : Nat) (p : Pkt) : State :=
  let s1 := ((s.countTx port p).addHist port p).tsEntry port p
  let s2 := match p.queue with
    | some q => s1.countQueue (queueSlice q) (q % 32768) p.len
    | none => s1
  (s2.freePkt (port / 128) p).lineOut port p

/-- TRANSMIT_COMPLETE (R331, R358, R362): the frame on a port's wire has left, its end having arrived. Ports 512 and 513 are
the host ports (HP_TX). -/
def execTransmitComplete (port : Nat) (s : State) : Res :=
  match (s.port port).wire with
  | [] => .next s
  | p :: rest =>
    if p.ended = false then .next s
    else
      let s1 := s.setPort port { s.port port with wire := rest }
      if port = 512 ∨ port = 513 then
        let hp := port - 512
        .next (((s1.freePkt (p.slice / 2) p).bump (Reg.hpTx hp) 1).emit (.host hp (s1.hostFrame hp p) p.stomp))
      else .next (s1.completeNet port p)

end Sys2Proof.Machine
end

