-- ==== Sys2Proof/Machine/Cipher.lean ====
section
/-! DEFINITION. The cipher engine's passes, the host's operations on contexts and keys, export and import (chapter 11). -/

namespace Sys2Proof.Machine

/-! ### Port receive (R304, R310, R311) -/

/-- The key bytes of a context, as its slot holds them. -/
def State.ctxKey (s : State) (c : SaCtx) : List Nat := keyBytes c (s.saKey c).val

/-- A frame failed its ICV check. -/
def State.tagFail (s : State) (sl : Nat) : State := s.setEv (Reg.cipEvents sl) 2

/-- The inbound MACsec pass on a whole frame (R310). -/
def State.macsecRx (s : State) (port : Nat) (p : Pkt) (dt : Word64) : State :=
  let sl := port / 64
  match s.macsecCheck port p.data p.data.length with
  | .bad code => (if code = 0x13 then s.keyAbsent else s).dropIn p sl code
  | .plain none => s.accTake port p 0 p.len dt
  | .plain (some i) => (s.countSa sl i p.len).accTake port p 0 p.len dt
  | .go i pn tag n =>
    let c := s.saCtx sl i
    let ks := roundKeys (s.ctxKey c)
    let f := natsOf p.data
    if macGood c ks f pn tag n then
      let q := { p with data := bytesOf (macPlain c ks f pn tag n) }
      ((s.acceptPn sl i pn).countSa sl i q.len).accTake port q 1 q.len dt
    else (s.tagFail sl).dropIn p sl 0x10

/-- MACSEC_RX_PASS (R310): the next whole frame that a port with RX_EN = 1 holds. -/
def execMacsecRxPass (port : Nat) (dt : Word64) (s : State) : Res :=
  let x := s.port port
  match x.toCipher with
  | [] => .next s
  | p :: rest => .next ((s.setPort port { x with toCipher := rest }).macsecRx port p dt)

/-- A cut-through decrypted frame is whole, and its ICV is checked: it goes on with the rest of its plaintext; where the check
fails, what has not left is dropped, and what is on a wire leaves whole with an inverted FCS (R311). -/
def State.icvDone (s : State) (w : IcvWait) : State :=
  let sl := w.port / 64
  let ks := roundKeys (keyBytes w.sa w.key)
  let tag := tagLen w.frame
  let n := secLen w.frame w.frame.length
  let len := w.given + w.left.length + 4
  let s1 := s.dropIcv w.pkt
  if secTagOk w.frame w.frame.length && macGood w.sa ks (natsOf w.frame) w.pn tag n then
    ((s1.acceptPn sl w.ctx w.pn).countSa sl w.ctx len).cutJoin w.port w.pkt len w.left
  else ((s1.cutJoin w.port w.pkt len w.left).failCut w.pkt 0x11 0x11).tagFail sl

/-- ICV_CHECK_DONE (R311): the ICV of the frame of a port that ended first. -/
def execIcvCheckDone (port : Nat) (s : State) : Res :=
  match s.cipher.icv.find? (fun x => decide (x.2.port = port) && x.2.ended) with
  | none => .next s
  | some (_, w) => .next (s.icvDone w)

/-! ### Egress and recirculation (R304, R312 to R315) -/

/-- The next job of a slice's cipher point: its frame is whole; at egress its port is not in HOLD (R259), and recirculated
packets keep their order. -/
def State.nextCip (s : State) (sl : Nat) : Option CipJob :=
  (s.slice sl).cip.find? (fun j => j.pkt.ended &&
    (if j.recirc then decide (((s.slice sl).cip.filter (fun x => x.recirc)).head? = some j)
     else (s.port j.pkt.destPort).state != .hold))

/-- A job leaves a slice's cipher point. -/
def State.popCip (s : State) (sl : Nat) (j : CipJob) : State :=
  s.setSlice sl { s.slice sl with cip := (s.slice sl).cip.erase j }

/-- Why a job goes no further: its packet is marked for a drop, or its port is down (log 92). -/
def State.cipBad (s : State) (j : CipJob) : Option Nat :=
  if j.pkt.bad.isSome then j.pkt.bad else if !j.recirc && s.sendsNone j.pkt.destPort then some 0x56 else none

/-- A pass drops its packet. -/
def State.passDrop (s : State) (sl : Nat) (j : CipJob) (code : Nat) : State :=
  (((if code = 0x13 then s.keyAbsent else s).dropIn j.pkt sl code)).releaseHand

/-- An outbound pass of a context on a packet: PN, key, protection (R312 to R314). -/
def State.outPass (s : State) (sl i : Nat) (j : CipJob) (esp : Bool) (dt : Word64) : State :=
  match s.takePn sl i with
  | (s1, none) => s1.passDrop sl j 0x14
  | (s1, some pn) =>
    let c := s1.saCtx sl i
    if (s1.saKey c).written = false then s1.passDrop sl j 0x13
    else
      let f := natsOf j.pkt.data
      let out := if esp then
          espSeal c (s1.ctxKey c) f (j.pkt.hdrOff (saF c 1 31 27)) (j.pkt.hdrOff (saF c 1 26 22)) pn
        else macSeal c (s1.ctxKey c) f pn
      match out with
      | .bad code => s1.passDrop sl j code
      | .ok g =>
        let p := { j.pkt with data := bytesOf g }
        let s2 := s1.countSa sl i p.len
        if esp then s2.afterPasses sl { j with pkt := p, espDone := true } dt else s2.toWire p dt

/-- OUTBOUND_PASS (R312, R313): the next packet at a cipher point of a slice, where its next pass is outbound. -/
def execOutboundPass (p : PassAt) (s : State) : Res :=
  let sl := p.slice.val
  match s.nextCip sl with
  | none => .next s
  | some j =>
    let s1 := s.popCip sl j
    match s.cipBad j with
    | some code => .next ((s1.dropIn j.pkt sl code).releaseHand)
    | none =>
      match s.nextPass sl j with
      | .esp i => if saIn (s.saCtx sl i) then .next s else .next (s1.outPass sl i j true p.dt)
      | .mac i => .next (s1.outPass sl i j false p.dt)
      | _ => .next (s1.afterPasses sl j p.dt)

/-- An inbound ESP pass of a context on a packet (R315). The context takes the sequence number of every packet whose ICV is
right, whatever becomes of the packet. -/
def State.espIn (s : State) (sl i : Nat) (j : CipJob) (dt : Word64) : State :=
  let c := s.saCtx sl i
  let key := if (s.saKey c).written then some (s.ctxKey c) else none
  let f := natsOf j.pkt.data
  let h := j.pkt.hdrOff (saF c 1 31 27)
  let r := espOpen c key f h (j.pkt.hdrOff (saF c 1 26 22))
  let s1 := match r.2 with
    | some n => s.setSaCtx sl i (espAccept c n)
    | none => s
  match r.1 with
  | .bad code =>
    let s2 := s1.passDrop sl j code
    if code = 0x10 ∧ getNat f h 4 = saF c 2 31 0 then s2.tagFail sl else s2
  | .ok g =>
    let p := { j.pkt with data := bytesOf g }
    (s1.countSa sl i p.len).afterPasses sl { j with pkt := p, espDone := true } dt

/-- ESP_INBOUND_PASS (R304, R315): the next packet at a cipher point of a slice, where its next pass is an inbound ESP one. -/
def execEspInboundPass (p : PassAt) (s : State) : Res :=
  let sl := p.slice.val
  match s.nextCip sl with
  | none => .next s
  | some j =>
    match s.espPass sl j with
    | none => .next s
    | some i =>
      if saIn (s.saCtx sl i) = false ∨ (s.cipBad j).isSome = true then .next s
      else .next ((s.popCip sl j).espIn sl i j p.dt)

/-! ### Operations on contexts (R306, R307, R316 to R318) -/

/-- The context that CIP_SA_SEL selects. -/
def State.saSel (s : State) (sl : Nat) : Nat := bits (s.reg (Reg.cipSaSel sl)) 14 0

/-- Word w of a context. -/
def saWord (c : SaCtx) (w : Nat) : Word32 := c.extractLsb' (32 * w) 32

/-- The operation ends: RESULT is set and GO clears. -/
def State.saDone (s : State) (sl result : Nat) : State :=
  (s.clrBit (Reg.cipSaCmd sl) 31).setReg (Reg.cipSaResult sl) (BitVec.ofNat 32 result)

/-- READ: the context goes to the staging words. -/
def State.saRead (s : State) (sl : Nat) : State :=
  let c := s.saCtx sl (s.saSel sl)
  ((List.range 48).foldl (fun x w => x.setReg (Reg.cipSaData sl w) (saWord c w)) s).saDone sl 1

/-- The context that the staging words hold; a WRITE clears STOPPED (Table 11.2). -/
def State.staged (s : State) (sl : Nat) : SaCtx :=
  setBits ((List.range 48).foldl (fun (c : SaCtx) w =>
    c ||| ((s.reg (Reg.cipSaData sl w)).zeroExtend 1536 <<< (32 * w))) 0) 31 31 0

/-- A context takes a value at the next boundary (R307). -/
def State.saLater (s : State) (sl i : Nat) (c : SaCtx) : State :=
  { s with cipher := { s.cipher with ctxNext := s.cipher.ctxNext ++ [(32768 * sl + i, c)] } }

/-- WRITE. -/
def State.saWrite (s : State) (sl : Nat) : State := (s.saLater sl (s.saSel sl) (s.staged sl)).saDone sl 1

/-- CLEAR. -/
def State.saClear (s : State) (sl : Nat) : State := (s.saLater sl (s.saSel sl) 0).saDone sl 1

/-- An export is performed at the next tick boundary (R317); GO stays set until then. -/
def State.exportLater (s : State) (sl op kek : Nat) : State :=
  { s with cipher := { s.cipher with
    cmdNext := s.cipher.cmdNext ++ [(32768 * sl + s.saSel sl, 4 * op + kek)] } }

/-- The context bytes as stored. -/
def saBytes (c : SaCtx) : List Nat := (List.range 192).map (fun i => bits c (8 * i + 7) (8 * i))

/-- A context from its bytes. -/
def saOfBytes (l : List Nat) : SaCtx := BitVec.ofNat 1536 (l.foldr (fun b n => b % 256 + 256 * n) 0)

/-- Write record bytes to CIP_XFER, and zeros after them. -/
def State.putXfer (s : State) (sl : Nat) (l : List Nat) : State :=
  (List.range 60).foldl (fun x w =>
    x.setReg (Reg.cipXfer sl w) (BitVec.ofNat 32 (natOfBytes ((l ++ List.replicate 240 0).drop (4 * w) |>.take 4)))) s

/-- The header of an export record (Table 11.3). -/
def recordHead (type kek len : Nat) : List Nat := [0x53, 1, type, kek] ++ bytesOfNat 2 len ++ [0, 0]

/-- The gap of an export. -/
def State.exportGap (s : State) (sl : Nat) : Nat := (s.cfg (Reg.cipGapHi sl)).toNat * 2 ^ 32 + (s.cfg (Reg.cipGapLo sl)).toNat

/-- What an export records, and what the source keeps (R317): only an outbound context with a gap changes. -/
def exportPair (c : SaCtx) (gap : Nat) : SaCtx × SaCtx :=
  if saIn c ∨ saMode c = 0 ∨ gap = 0 then (c, c)
  else
    let n := (saNext c + gap) % 2 ^ 64
    (saSetNext c n, setBits c 383 320 ((n + 2 ^ 64 - 1) % 2 ^ 64))

/-- Perform an export at a boundary (R316, R317). -/
def State.export' (s : State) (x : Nat × Nat) : State :=
  let sl := x.1 / 32768
  let i := x.1 % 32768
  let op := x.2 / 4
  let kek := x.2 % 4
  let c := s.saCtx sl i
  let (rec', keep) := exportPair c (s.exportGap sl)
  if op = 4 then ((s.setSaCtx sl i keep).putXfer sl (recordHead 1 0 192 ++ saBytes rec')).saDone sl 1
  else
    let k := s.saKey c
    let w := s.keySlot (262144 + kek)
    if k.written = false ∨ w.written = false then s.saDone sl 4
    else
      let text := saBytes rec' ++ bytesOfNat 32 k.val.toNat
      ((s.setSaCtx sl i keep).putXfer sl (recordHead 2 kek 232 ++ kwWrap (bytesOfNat 32 w.val.toNat) text)).saDone sl 1

/-- The 240 bytes of CIP_XFER. -/
def State.getXfer (s : State) (sl : Nat) : List Nat :=
  (List.range 60).flatMap (fun w => bytesOfNat 4 (s.reg (Reg.cipXfer sl w)).toNat)

/-- The import of a context, its STOPPED bit cleared, and of a key into its slot, for the next boundary. -/
def State.importLater (s : State) (sl : Nat) (c : SaCtx) (key : Option (Nat × List Nat)) : State :=
  let c1 := setBits c 31 31 0
  match key with
  | none => (s.saLater sl (s.saSel sl) c1).saDone sl 1
  | some (slot, k) =>
    let s1 := s.saLater sl (s.saSel sl) (setBits c1 17 0 slot)
    let kk : Key := ⟨BitVec.ofNat 256 (natOfBytes k), true⟩
    let s2 : State := { s1 with cipher := { s1.cipher with keyNext := s1.cipher.keyNext ++ [(slot, kk)] } }
    s2.saDone sl 1

/-- IMPORT (R318). -/
def State.saImport (s : State) (sl target : Nat) : State :=
  let r := s.getXfer sl
  let type := r.getD 2 0
  let len := natOfBytes ((r.drop 4).take 2)
  if r.getD 0 0 ≠ 0x53 ∨ r.getD 1 0 ≠ 1 ∨ ¬((type = 1 ∧ len = 192) ∨ (type = 2 ∧ len = 232)) then s.saDone sl 2
  else if type = 1 then s.importLater sl (saOfBytes ((r.drop 8).take 192)) none
  else
    let w := s.keySlot (262144 + r.getD 3 0)
    if 4 ≤ r.getD 3 0 ∨ w.written = false then s.saDone sl 4
    else
      match kwUnwrap (bytesOfNat 32 w.val.toNat) ((r.drop 8).take 232) with
      | none => s.saDone sl 3
      | some text => s.importLater sl (saOfBytes (text.take 192)) (some (target, text.drop 192))

/-- A write of CIP_SA_CMD: with GO = 1 it runs OP; while GO reads 1 it is ignored. -/
def State.saCmd (s : State) (sl : Nat) (v : Word32) : State :=
  if bit (s.reg (Reg.cipSaCmd sl)) 31 then s
  else
    let s1 := s.setReg (Reg.cipSaCmd sl) (v &&& 0xF303FFFF)
    if bit v 31 = false then s1
    else
      match bits v 30 28 with
      | 1 => s1.saRead sl
      | 2 => s1.saWrite sl
      | 3 => s1.saClear sl
      | 4 => s1.exportLater sl 4 0
      | 5 => s1.exportLater sl 5 (bits v 25 24)
      | 6 => s1.saImport sl (bits v 17 0)
      | _ => s1.saDone sl 5

/-- A word of CIP_SA_CMD with GO = 1. -/
def saCmdWord (op kek target : Nat) : Word32 := BitVec.ofNat 32 (2 ^ 31 + op * 2 ^ 28 + kek * 2 ^ 24 + target)

/-- CIP_SA_READ (R307). -/
def execCipSaRead (slice : Fin 8) (s : State) : Res := .next (s.saCmd slice.val (saCmdWord 1 0 0))

/-- CIP_SA_WRITE (R307). -/
def execCipSaWrite (slice : Fin 8) (s : State) : Res := .next (s.saCmd slice.val (saCmdWord 2 0 0))

/-- CIP_SA_CLEAR (R307). -/
def execCipSaClear (slice : Fin 8) (s : State) : Res := .next (s.saCmd slice.val (saCmdWord 3 0 0))

/-- EXPORT_CLEAR (R316, R317). -/
def execExportClear (slice : Fin 8) (s : State) : Res := .next (s.saCmd slice.val (saCmdWord 4 0 0))

/-- EXPORT_WRAP (R316, R317). -/
def execExportWrap (slice : Fin 8) (kek : Fin 4) (s : State) : Res := .next (s.saCmd slice.val (saCmdWord 5 kek.val 0))

/-- IMPORT (R318). -/
def execImportRecord (slice : Fin 8) (target : BitVec 18) (s : State) : Res :=
  .next (s.saCmd slice.val (saCmdWord 6 0 target.toNat))

/-! ### Keys (R308, R309) -/

/-- The slot that KEY_SLOT_SEL selects; KEK slots stand above the key slots. -/
def State.slotSel (s : State) : Nat :=
  let v := s.reg Reg.keySlotSel
  if bit v 31 then 262144 + bits v 1 0 else bits v 17 0

/-- A write of KEY_DATAi. -/
def State.keyDataWrite (s : State) (i : Nat) (v : Word32) : State :=
  { s with cipher := { s.cipher with keyData := SMap.set 0 s.cipher.keyData i v } }

/-- The key that the data registers hold, first byte most significant. -/
def State.dataKey (s : State) : BitVec 256 :=
  BitVec.ofNat 256 ((List.range 8).foldl (fun n i => n * 2 ^ 32 + (SMap.find 0 s.cipher.keyData i).toNat) 0)

/-- A slot takes a value at the next boundary. -/
def State.keyLater (s : State) (k : Key) : State :=
  { s with cipher := { s.cipher with keyNext := s.cipher.keyNext ++ [(s.slotSel, k)] } }

/-- KEY_COMMIT (R308, R309): the data registers go to the selected slot, and are zeroed. -/
def State.keyCommitWrite (s : State) : State :=
  let s1 := s.keyLater ⟨s.dataKey, true⟩
  { s1 with cipher := { s1.cipher with keyData := [] } }

/-- KEY_COMMIT (R308). -/
def execKeyCommit (s : State) : Res := .next s.keyCommitWrite

/-- KEY_ERASE (R309). -/
def execKeyErase (s : State) : Res := .next (s.keyLater ⟨0, false⟩)

/-- At a boundary contexts and keys take what was written for them, exports are performed, and a commit or erase is shown
(R307, R309, R317, R318). -/
def State.applyCipher (s : State) : State :=
  let c := s.cipher
  let s1 := { s with cipher := { c with
    ctx := c.ctxNext.foldl (fun m x => SMap.set 0 m x.1 x.2) c.ctx
    keys := c.keyNext.foldl (fun m x => SMap.set ⟨0, false⟩ m x.1 x.2) c.keys
    ctxNext := []
    keyNext := []
    cmdNext := [] } }
  let s2 := if c.keyNext = [] then s1 else s1.setEv Reg.ksEvents 0
  c.cmdNext.foldl (fun x e => x.export' e) s2

end Sys2Proof.Machine
end

