-- ==== Sys2Proof/Machine/Ethernet.lean ====
section
/-! DEFINITION. Ethernet ports and lanes: bring-up and link state, pause frames sent, eye scans and recovered clocks
(chapter 9), with the bring-up of the host ports (R336, R340, R341). Ports 512 and 513 are HP0 and HP1. -/

namespace Sys2Proof.Machine

/-! ### Port states (Table 9.3) -/

/-- The octet and local lane of a port. -/
def portOct (p : Nat) : Nat := p / 8
def portLane (p : Nat) : Nat := p % 8

/-- The state of a network port or a host port. -/
def State.portSt (s : State) (p : Nat) : PortState := if p < 512 then (s.port p).state else (s.hp (p - 512)).state

/-- Set it. -/
def State.setPortSt (s : State) (p : Nat) (st : PortState) : State :=
  if p < 512 then s.setPort p { s.port p with state := st } else s.setHp (p - 512) { s.hp (p - 512) with state := st }

/-- An event bit of a network port's octet; a host port has none. -/
def State.octEv (s : State) (p n : Nat) : State := if p < 512 then s.setEv (Reg.octEvents (portOct p)) n else s

/-- The device serves lanes: from CORE_UP onward. -/
def State.portOn (s : State) (p : Nat) : Bool := s.coreOn && (decide (512 ≤ p) || s.portExists p)

/-- A port enters a state at the next boundary (R258). -/
def State.portDue (s : State) (p : Nat) (st : PortState) : State :=
  if p < 512 then s.setPort p { s.port p with due := some st } else s.setHp (p - 512) { s.hp (p - 512) with due := some st }

/-- The state that is due. -/
def State.dueSt (s : State) (p : Nat) : Option PortState := if p < 512 then (s.port p).due else (s.hp (p - 512)).due

/-- No state is due any more. -/
def State.clearDue (s : State) (p : Nat) : State :=
  if p < 512 then s.setPort p { s.port p with due := none } else s.setHp (p - 512) { s.hp (p - 512) with due := none }

/-- EN as the port acts on it; a host port with HOSTPORT_MODE 3 stays DISABLED (R336). -/
def State.enabled (s : State) (p : Nat) : Bool :=
  if p < 512 then s.portExists p && s.portEn p
  else s.cfgB (Reg.hpCfg (p - 512)) 31 && decide (s.strapF 5 4 ≠ 3)

/-- A port runs auto-negotiation: AN_EN, not in loopback, and not on a C2M or C2C interface (R254, R265). -/
def State.wantsAn (s : State) (p : Nat) : Bool :=
  decide (p < 512) && decide (s.portCfgF p 25 25 = 1) && decide (s.portLoop p = 0) && !Config.c2m p

/-- What a port advertises in AN (R254): the technology ability of its mode, by its lanes and its rate in Gb/s, and at 25 Gb/s the
FEC that its FEC field selects. -/
def State.advertOf (s : State) (p : Nat) : Nat × Nat × Option Nat :=
  (s.portWidth p, s.portRate p, if s.portRate p = 25 then some (s.portCfgF p 27 26) else none)

/-- DOWN_HOLD; 0 on a host port (R336). -/
def State.downHold (s : State) (p : Nat) : Nat := if p < 512 then s.portCfgF p 15 0 else 0

/-- The port that holds local lane l of octet o, if any. -/
def State.laneOwner (s : State) (o l : Nat) : Option Nat :=
  ((List.range 8).find? (fun i => decide (i ≤ l) && decide (l < i + s.portWidth (8 * o + i)))).map (fun i => 8 * o + i)

/-! ### Eye scans (R266 to R268) -/

/-- The eye scan of an octet. -/
def State.eye (s : State) (o : Nat) : Eye := SMap.find Eye.reset s.eyes o

/-- Replace it. -/
def State.setEye (s : State) (o : Nat) (x : Eye) : State := { s with eyes := SMap.set Eye.reset s.eyes o x }

/-- A scan ends early; the device clears START. -/
def State.eyeAbort (s : State) (o cause : Nat) : State :=
  (s.setEye o { s.eye o with state := 3, cause := cause, row := [] }).clrBit (Reg.octEyeCtl o) 31

/-- LANE and ADDR of an octet's scan, as in force (log 45). -/
def State.eyeLane (s : State) (o : Nat) : Nat := s.cfgF (Reg.octEyeCtl o) 10 8
def State.eyeAddr (s : State) (o : Nat) : Nat :=
  (s.cfg (Reg.octEyeAddrHi o)).toNat % 65536 * 2 ^ 32 + (s.cfg (Reg.octEyeAddrLo o)).toNat

/-- The state of a fabric lane, by its device lane number. -/
def State.lane (s : State) (l : Nat) : Lane := SMap.find Lane.reset s.fabric.lanes l

/-- Replace a fabric lane. -/
def State.setLane (s : State) (l : Nat) (x : Lane) : State :=
  { s with fabric := { s.fabric with lanes := SMap.set Lane.reset s.fabric.lanes l x } }

/-- Lane l of octet o belongs to a port in state UP, or to a fabric half in service. -/
def State.laneServes (s : State) (o l : Nat) : Bool :=
  if s.laneFabric (8 * o + l) then (s.lane (8 * o + l)).state == .inService
  else match s.laneOwner o l with
    | some p => (s.port p).state == .up
    | none => false

/-- The lane of an octet's scan does (R267). -/
def State.eyeLaneOk (s : State) (o : Nat) : Bool := s.laneServes o (s.eyeLane o)

/-- Scans of an octet end if their lane is no longer in service. -/
def State.eyeCheck (s : State) (o : Nat) : State :=
  if (s.eye o).state = 1 ∧ s.eyeLaneOk o = false then s.eyeAbort o 2 else s

/-- At a boundary CANCEL and START of an octet act (R267, R268). The lane is tested before the address (DEDUCED). -/
def State.eyeTick (s : State) (o : Nat) : State :=
  let s1 := if s.cfgB (Reg.octEyeCtl o) 28 then
      (if (s.eye o).state = 1 then s.eyeAbort o 3 else s).clrBit (Reg.octEyeCtl o) 28
    else s
  if (s1.eye o).state = 1 ∨ s1.cfgB (Reg.octEyeCtl o) 31 = false then s1
  else if s1.eyeLaneOk o = false then s1.eyeAbort o 2
  else if s1.eyeAddr o % 64 ≠ 0 ∨ s1.inRegion 4 (s1.eyeAddr o) 16384 = false then s1.eyeAbort o 1
  else s1.setEye o { state := 1, cause := 0, points := 0, row := [] }

/-- A write of OCT_EYE_CTL; START is ignored while a scan runs. -/
def State.eyeCtlWrite (s : State) (o : Nat) (v : Word32) : State :=
  let keep := decide ((s.eye o).state = 1)
  let v1 := if keep then setBits v 31 31 (b2n (bit (s.reg (Reg.octEyeCtl o)) 31)) else v
  s.setReg (Reg.octEyeCtl o) (v1 &&& 0xF01F07FF)

/-- EYE_SCAN_START (R267): the write of START; the scan begins, or aborts, at the next boundary. -/
def execEyeScanStart (octet : Fin 64) (s : State) : Res :=
  .next (s.eyeCtlWrite octet.val (setBits (s.reg (Reg.octEyeCtl octet.val)) 31 31 1))

/-- EYE_SCAN_CANCEL (R268): the write of CANCEL; a running scan aborts at the next boundary. -/
def execEyeScanCancel (octet : Fin 64) (s : State) : Res :=
  .next (s.eyeCtlWrite octet.val (setBits (s.reg (Reg.octEyeCtl octet.val)) 28 28 1))

/-- The word of a point: bit 31 and all ones where the count saturates (R268). -/
def eyeWord (errors : Nat) : Word32 := if errors < 2 ^ 31 then BitVec.ofNat 32 errors else 0xFFFFFFFF

/-- EYE_POINT_DONE (R266, R268): a point completes; the last point of a row writes the row. -/
def execEyePointDone (octet : Fin 64) (errors : Nat) (s : State) : Res :=
  let o := octet.val
  let x := s.eye o
  if x.state ≠ 1 ∨ 4096 ≤ x.points then .next s
  else
    let row := x.row ++ [eyeWord errors]
    if (x.points + 1) % 64 = 0 then
      let s1 := s.setEye o { x with points := x.points + 1, row := [] }
      .next (s1.postIn { addr := s.eyeAddr o + 256 * (x.points / 64)
                         data := row.flatMap (fun w => leBytes 4 w.toNat)
                         add := false
                         quad := o / 16 })
    else .next (s.setEye o { x with points := x.points + 1, row := row })

/-- EYE_DONE (R268): the last row has been written. -/
def execEyeDone (octet : Fin 64) (s : State) : Res :=
  let o := octet.val
  let x := s.eye o
  if x.state = 1 ∧ x.points = 4096 then
    .next (((s.setEye o { x with state := 2 }).clrBit (Reg.octEyeCtl o) 31).setEv (Reg.octEvents o) 4)
  else .next s

/-! ### Leaving and entering states -/

/-- The packets in the class queues of a host port that has left UP are dropped (R341). -/
def State.hostQDrop (s : State) (hp : Nat) : State :=
  (List.range 8).foldl (fun x c =>
    let k := 8 * hp + c
    ((SMap.find [] x.tm.hostQ k).foldl (fun y p => y.dropHub p 0x56)
      { x with tm := { x.tm with hostQ := SMap.set [] x.tm.hostQ k [] } })) s

/-- A frame that is arriving as its port leaves UP ends with an error (R256). -/
def State.endRx (s : State) (p : Nat) : State := if s.portSt p = .up then s.cutEnd p [] .code else s

/-- A port passes to a state other than UP and HOLD. Leaving UP or HOLD sets LINK_DOWN; a port that was in service before the
boundary (old) leaves service, and its queues are flushed (R236, R258, log 63). -/
def State.leaveTo (old s : State) (p : Nat) (st : PortState) : State :=
  let was := s.portSt p
  let served := old.inService p
  let s1 := (s.endRx p).setPortSt p st
  if 512 ≤ p then (if was = .up then s1.hostQDrop (p - 512) else s1)
  else
    let s2 := s1.eyeCheck (portOct p)
    let s3 := if was = .up ∨ was = .hold then s2.octEv p 0 else s2
    if served then s3.portDown p else s3

/-- A port enters UP. -/
def State.enterUp (s : State) (p : Nat) : State := (s.setPortSt p .up).octEv p 1

/-- What half h of an octet is under a mode word: WIDE, the half's code and rate. -/
def halfOf (mode : Word32) (h : Nat) : Bool × Nat × Nat :=
  (bit mode 31, halfCode mode (4 * h), if h = 0 then bits mode 1 0 else bits mode 5 4)

/-- A port in HOLD or past it reports the faults it sees. -/
def State.setFaults (s : State) (p : Nat) (lf rf : Bool) : State :=
  if p < 512 then s.setPort p { s.port p with localF := lf, remoteF := rf } else s

/-- A port enters AN and advertises its ability (R254), or enters TRAINING. -/
def State.enterLink (s : State) (p : Nat) : State :=
  if s.wantsAn p then (s.setPortSt p .an).emit (.advert p (s.advertOf p).1 (s.advertOf p).2.1 (s.advertOf p).2.2)
  else s.setPortSt p .training

/-- A port enters HOLD (R259). -/
def State.enterHold (s : State) (p : Nat) : State :=
  let s1 := s.endRx p
  (s1.setPort p { s1.port p with state := .hold, holdAt := s.now }).eyeCheck (portOct p)

/-- The half of an octet that holds a port is another under the mode that takes effect at this boundary (R272). -/
def State.modeChange (old s : State) (p : Nat) : Bool :=
  decide (p < 512) &&
  (halfOf (old.cfg (Reg.octMode (portOct p))) (portLane p / 4) != halfOf (s.cfg (Reg.octMode (portOct p))) (portLane p / 4))

/-- The hold of a port has run out (R259). -/
def State.holdOut (s : State) (p : Nat) : Bool :=
  s.portSt p == .hold && decide ((s.port p).holdAt + s.downHold p ≤ s.now)

/-- At a boundary a port enters the state that is due (Table 9.3): the ports of a new mode start in DISABLED (R272), EN = 0
disables from any state, and a hold that has run out ends in FAULT. -/
def State.portTick (old s : State) (p : Nat) : State :=
  let st := s.portSt p
  let s1 := s.clearDue p
  if s.enabled p = false ∨ State.modeChange old s p = true then (if st = .disabled then s1 else State.leaveTo old s1 p .disabled)
  else
    match s.dueSt p with
    | some .up => (s1.enterUp p).setFaults p false false
    | some .hold => s1.enterHold p
    | some .fault => State.leaveTo old s1 p .fault
    | some t => s1.setPortSt p t
    | none =>
      if st = .disabled ∨ st = .fault then s1.enterLink p
      else if s.holdOut p then State.leaveTo old s1 p .fault
      else s1

/-- The pauses of a port whose time is past have ended (R262). -/
def State.pauseTick (s : State) (p : Nat) : State :=
  let x := s.port p
  if x.rxPaused = 0 then s
  else s.setPort p { x with rxPaused := (List.range 8).foldl (fun m c =>
    if bit m c && decide (SMap.find 0 x.pauseEnd c + 2 ≤ s.now) then setBits m c c 0 else m) x.rxPaused }

/-- At a boundary, every port. -/
def State.portsTick (old s : State) : State :=
  if s.coreOn then (List.range 514).foldl (fun x p => (State.portTick old x p).pauseTick p) s else s

/-- The write of EN of a port. -/
def State.portEnWrite (s : State) (p : Nat) (en : Bool) : State :=
  if p < 512 then s.setRegF (Reg.octPortCfg (portOct p) (portLane p)) 31 31 (b2n en)
  else s.setRegF (Reg.hpCfg (p - 512)) 31 31 (b2n en)

/-- PORT_ENABLE (R258): the write of EN; the port leaves or enters DISABLED at the next boundary. The registers of a lane
that begins no port ignore it (R252). -/
def execPortEnable (port : Nat) (en : Bool) (s : State) : Res :=
  if (512 ≤ port ∧ port < 514) ∨ s.portNamed port = true then .next (s.portEnWrite port en) else .next s

/-- AN_AGREE (R254): the abilities that the partner advertises, by lanes and rate. With the port's own among them the port trains
from the next boundary on; without it it stays in AN. -/
def execAnAgree (port : Nat) (partner : List (Nat × Nat)) (s : State) : Res :=
  if s.portSt port ≠ .an then .next s
  else if partner.contains ((s.advertOf port).1, (s.advertOf port).2.1) then .next (s.portDue port .training)
  else .next (s.octEv port 2)

/-- Lanes of a port. -/
def State.portLanes (s : State) (p : Nat) : List Nat := (List.range (s.portWidth p)).map (fun i => portLane p + i)

/-- TRAINING_DONE (R258, R260): bit i of inverted is the inversion found on the port's lane i; detection is suspended in a
loopback (R265). The port enters ALIGNING at the next boundary. -/
def execTrainingDone (port : Nat) (inverted : BitVec 8) (s : State) : Res :=
  if s.portSt port ≠ .training then .next s
  else
    let s1 := s.portDue port .aligning
    if 512 ≤ port ∨ s.portLoop port ≠ 0 then .next s1
    else
      .next ((List.range (s.portWidth port)).foldl (fun x i =>
        x.setRegF (Reg.octLaneStatus (portOct port) (portLane port + i)) 30 30 (b2n (bit inverted i))) s1)

/-- LINK_UP (R258, R261): reversed says that the partner's lane k arrived on lane w − 1 − k for every k. The port enters UP at
the next boundary. -/
def execLinkUp (port : Nat) (reversed : Bool) (s : State) : Res :=
  if s.portSt port ≠ .aligning then .next s
  else
    let s1 := s.portDue port .up
    let w := s.portWidth port
    if 512 ≤ port ∨ s.portLoop port ≠ 0 then .next s1
    else
      let rev := reversed && decide (2 ≤ w)
      .next ((List.range w).foldl (fun x i =>
        let ca := Reg.octLaneStatus (portOct port) (portLane port + i)
        (x.setRegF ca 29 29 (b2n rev)).setRegF ca 26 24 (if rev then w - 1 - i else i)) s1)

/-- ALIGN_FAIL (R261): any other lane order of a port of two or more lanes; detection is suspended in a loopback (R265). -/
def execAlignFail (port : Nat) (s : State) : Res :=
  if s.portSt port = .aligning ∧ 2 ≤ s.portWidth port ∧ s.portLoop port = 0 then .next (s.octEv port 3) else .next s

/-- LINK_LOSS (R259): loss of alignment, or a local or remote fault. At the next boundary the port enters HOLD, or FAULT where
DOWN_HOLD is 0. -/
def execLinkLoss (port : Nat) (localFault remoteFault : Bool) (s : State) : Res :=
  if s.portSt port ≠ .up then .next s
  else .next ((s.setFaults port localFault remoteFault).portDue port (if s.downHold port = 0 then .fault else .hold))

/-- HOLD_RESTORE (R259): the link is back within DOWN_HOLD ticks; nothing is dropped. -/
def execHoldRestore (port : Nat) (s : State) : Res :=
  if s.portSt port = .hold ∧ s.now ≤ (s.port port).holdAt + s.downHold port then .next (s.portDue port .up) else .next s

/-- HOLD_EXPIRE (R259): the boundary that ends this tick ends the hold's DOWN_HOLD ticks; the port is not restored and leaves
service. TICK_BOUNDARY finds it where this command has not told it. -/
def execHoldExpire (port : Nat) (s : State) : Res :=
  if s.portSt port = .hold ∧ (s.port port).holdAt + s.downHold port ≤ s.now + 1 then .next (s.portDue port .fault) else .next s

/-! ### Pause (R262 to R264) -/

/-- PAUSE_EXPIRE (R262): the pause time of a priority runs out in this tick; a PAUSE ends for the whole port. TICK_BOUNDARY ends
a pause whose time is past. -/
def execPauseExpire (port : Nat) (prio : Fin 8) (s : State) : Res :=
  let x := s.port port
  if bit x.rxPaused prio.val = false ∨ s.now < SMap.find 0 x.pauseEnd prio.val then .next s
  else .next (s.setPort port { x with rxPaused := if s.portFlow port = 2 then setBits x.rxPaused prio.val prio.val 0 else 0 })

/-- The priorities for which a port is to hold its partner paused now: bit 0 stands for PAUSE (R143, R239, R264). -/
def State.wantPause (s : State) (port : Nat) : BitVec 8 :=
  let all : BitVec 8 := if (s.slice (port / 64)).xoff then 0xFF else (s.port port).txPause
  match s.portFlow port with
  | 1 => if all = 0 then 0 else 1
  | 2 => all &&& BitVec.ofNat 8 (s.cfgF (Reg.octPortPfc (portOct port) (portLane port)) 7 0)
  | _ => 0

/-- One pause frame leaves and is counted. -/
def State.sendPause (s : State) (port : Nat) (prio : BitVec 8) (time : Nat) : State :=
  if prio = 0 then s
  else (s.emit (.pause port prio time)).bump (Reg.octPortPauseTx (portOct port) (portLane port)) 1

/-- PAUSE_FRAME_SEND (R264): while a condition holds, a frame with PAUSE_TIME; for what is released, one frame with a time
of 0. Nothing is sent outside UP or with a PAUSE_TIME of 0. A frame sent under R239 sets PFC_XOFF. When a refresh is due is the
sender's to judge. -/
def execPauseFrameSend (port : Nat) (s : State) : Res :=
  let s1 := s.notePfc
  let t := s1.cfgF (Reg.octPortFrame (portOct port) (portLane port)) 15 0
  if s1.portExists port = false ∨ (s1.port port).state ≠ .up ∨ s1.portLoop port = 2 ∨ t = 0 then .next s1
  else
    let want := s1.wantPause port
    let gone := (s1.port port).sent &&& ~~~want
    let s2 := (s1.sendPause port gone 0).sendPause port want t
    let own := if s1.portFlow port = 1 then decide ((s1.port port).txPause ≠ 0) else decide ((s1.port port).txPause &&& want ≠ 0)
    let s3 := if decide (want ≠ 0) && own then s2.setEv (Reg.tmEvents (port / 64)) 2 else s2
    .next (s3.setPort port { s3.port port with sent := want })

/-! ### OCT_MODE and OCT_PORT_CFG (R265, R272) -/

/-- A half is FABRIC. -/
def halfFabric (mode : Word32) (h : Nat) : Bool := !bit mode 31 && halfCode mode (4 * h) == 4

/-- The ports of half h of octet o under a mode all have EN = 0. -/
def State.halfIdle (s : State) (o h : Nat) (mode : Word32) : Bool :=
  (List.range 8).all (fun i =>
    if modeWidth mode i ≠ 0 ∧ (i / 4 = h ∨ bit mode 31 = true) then !bit (s.reg (Reg.octPortCfg o i)) 31 else true)

/-- A write of OCT_MODE in RUNNING is accepted (R272). -/
def State.octModeOk (s : State) (o : Nat) (v : Word32) : Bool :=
  let old := s.reg (Reg.octMode o)
  (List.range 2).all (fun h =>
    halfOf old h == halfOf v h || (!halfFabric old h && !halfFabric v h && s.halfIdle o h old))

/-- A write of OCT_MODE: none where it is refused with CONFIG_LOCKED. -/
def State.octModeTo (s : State) (o : Nat) (v : Word32) : Option State :=
  let v1 := v &&& 0x8000FF33
  if s.running = true ∧ s.octModeOk o v1 = false then none else some (s.setReg (Reg.octMode o) v1)

/-- OCT_MODE_WRITE (R272): the new mode takes effect at the next boundary; a refused write changes nothing. -/
def execOctModeWrite (octet : Fin 64) (v : Word32) (s : State) : Res := .next ((s.octModeTo octet.val v).getD s)

/-- A write of OCT_PORT_CFG while EN = 1 may not change LOOPBACK, FEC, AN_EN, TRAIN_EN, TX_REVERSE or FLOW (R265, R272):
none where it is refused with CONFIG_LOCKED. -/
def State.octPortTo (s : State) (o i : Nat) (v : Word32) : Option State :=
  let old := s.reg (Reg.octPortCfg o i)
  let v1 := v &&& 0xFF83FFFF
  if bit old 31 = true ∧ (old ^^^ v1) &&& 0x7F830000 ≠ 0 then none else some (s.setReg (Reg.octPortCfg o i) v1)

/-! ### Recovered clocks (R269, R270) -/

/-- The octet that drives RCLK_A (false) or RCLK_B (true): the lowest with the enable set. -/
def rclkOctet (cfg : Nat → Word32) (b : Bool) : Option Nat :=
  (List.range 64).find? (fun o => bit (cfg (Reg.octRclk o)) (if b then 15 else 7))

/-- What drives an output: octet, lane and divider. -/
def rclkPick (cfg : Nat → Word32) (b : Bool) : Option (Nat × Nat × Nat) :=
  (rclkOctet cfg b).map (fun o =>
    (o, if b then bits (cfg (Reg.octRclk o)) 10 8 else bits (cfg (Reg.octRclk o)) 2 0,
      if b then bits (cfg (Reg.octRclk o)) 17 17 else bits (cfg (Reg.octRclk o)) 16 16))

/-- A recovered-clock output. -/
def State.rclk (s : State) (b : Bool) : Rclk := if b then s.rclkB else s.rclkA

/-- Replace it. -/
def State.setRclk (s : State) (b : Bool) (x : Rclk) : State := if b then { s with rclkB := x } else { s with rclkA := x }

/-- The divide ratio of a recovered clock (R269) by a lane's rate in units of 0.01 Gb/s. That of a 425 Gb/s lane is DEDUCED (log
95). -/
def rclkRatio (rate : Nat) : Nat :=
  match rate with
  | 42500 => 1360
  | 21250 => 680
  | 10625 => 340
  | 5312 => 170
  | 2578 => 165
  | _ => 0

/-- The rate of a lane in units of 0.01 Gb/s, by OCT_MODE or, in a fabric half, by FAB_LANE_CFG. -/
def State.laneGbps (s : State) (o l : Nat) : Nat :=
  let m := s.cfg (Reg.octMode o)
  let n := 8 * o + l
  if s.laneFabric n then
    match s.cfgF (Reg.fabLaneCfg (n / 128) (n % 128)) 27 26 with
    | 0 => 10625 | 1 => 21250 | 2 => 42500 | _ => 0
  else if bit m 31 || decide (halfCode m l < 3) then 21250
  else
    match if l < 4 then bits m 1 0 else bits m 5 4 with
    | 0 => 21250 | 1 => 10625 | 2 => 5312 | _ => 2578

/-- The selected lane of an output has lock as far as the device knows: its port is UP, or its fabric lane in service. -/
def State.rclkLocked (s : State) (b : Bool) : Bool :=
  match rclkPick s.cfg b with
  | none => false
  | some (o, l, _) => s.laneServes o l

/-- An output with what it carries (R269): the selected lane's receive clock divided to 156.25 MHz, or with DIV2 to 78.125 MHz;
low while it is squelched, while its selection changes, and with no lane selected. -/
def State.rclkDrive (s : State) (b : Bool) : State :=
  let x := s.rclk b
  match rclkPick s.cfg b with
  | none => s.setRclk b { x with ratio := 0, khz := 0 }
  | some (o, l, d) =>
    s.setRclk b { x with
      ratio := rclkRatio (s.laneGbps o l)
      khz := if x.squelched || x.changing then 0 else if d = 1 then 78125 else 156250 }

/-- An output is squelched: low, with RCLK_SQUELCH set in its octet (R270). -/
def State.squelch (s : State) (b : Bool) : State :=
  match rclkOctet s.cfg b with
  | none => s
  | some o =>
    let s1 := s.setRclk b { s.rclk b with since := s.now }
    if (s1.rclk b).squelched then s1
    else ((s1.setRclk b { s1.rclk b with squelched := true }).setEv (Reg.octEvents o) 5).rclkDrive b

/-- An output resumes once its lane has held lock for 1,024 consecutive ticks, counted to tick n (R270). -/
def State.rclkResume (s : State) (b : Bool) (n : Nat) : State :=
  if s.rclkLocked b && decide ((s.rclk b).since + 1024 ≤ n) then (s.setRclk b { s.rclk b with squelched := false }).rclkDrive b
  else s

/-- At a boundary an output whose selection has changed is held low for one tick; one whose lane's port has left UP is squelched,
and one whose lane has held lock for long enough resumes (R270). -/
def State.rclkTick (old : State) (s : State) (b : Bool) : State :=
  let s1 := s.setRclk b { s.rclk b with changing := rclkPick old.cfg b != rclkPick s.cfg b }
  let s2 := if s1.rclkLocked b then s1.rclkResume b s1.now else s1.squelch b
  s2.rclkDrive b

/-- RCLK_SQUELCH (R270): the selected lane loses lock. That its port leaves UP the device finds at the boundary. -/
def execRclkSquelch (b : Bool) (s : State) : Res := .next (s.squelch b)

/-- RCLK_RESUME (R270): with this tick the selected lane has held lock for 1,024 consecutive ticks. -/
def execRclkResume (b : Bool) (s : State) : Res := .next (s.rclkResume b (s.now + 1))

end Sys2Proof.Machine
end

