-- ==== Sys2Proof/Machine/Line.lean ====
section
/-! DEFINITION. The line coding of a link frame: comma word, scrambler, stuffer and pad (R276 to R278, R282). Bits are in line
order, and a byte goes most significant bit first. -/

namespace Sys2Proof.Machine

/-- The bits of a byte, most significant first. -/
def bitsOfByte (b : Byte) : List Bool := (List.range 8).map (fun i => bit b (7 - i))

/-- The bits of bytes. -/
def bitsOf (bs : List Byte) : List Bool := bs.flatMap bitsOfByte

/-- The byte of eight bits. -/
def byteOfBits (l : List Bool) : Byte := BitVec.ofNat 8 (l.foldl (fun n b => 2 * n + b2n b) 0)

/-- n bytes of bits. -/
def bytesOfBits : Nat → List Bool → List Byte
  | 0, _ => []
  | n + 1, l => byteOfBits (l.take 8) :: bytesOfBits n (l.drop 8)

/-- Bits of a link frame, of its codewords, and of the data of one codeword. -/
def frameBits : Nat := 8192
def codeBits : Nat := 2400
def codeData : Nat := 2240

/-- The comma word: 28 ones, 72 zeros, 28 ones (R282). -/
def commaWord : List Bool := List.replicate 28 true ++ List.replicate 72 false ++ List.replicate 28 true

/-- n alternating bits that begin with a value. -/
def alternate : Nat → Bool → List Bool
  | 0, _ => []
  | n + 1, b => b :: alternate n (!b)

/-- What a frame begins with: the comma word, or in compact framing 128 idle bits (Table 10.1). -/
def frameHead (compact : Bool) : List Bool := if compact then alternate 128 true else commaWord

/-! ### The scrambler (R277) -/

/-- The state at the first codeword bit of a frame of a sender's lane. -/
def scramSeed (lane : Nat) : BitVec 58 := (BitVec.allOnes 49).zeroExtend 58 <<< 9 ||| BitVec.ofNat 58 (lane % 512)

/-- The scrambler's output bit of a state: the taps of x^58 and x^39. Which end of the register they count from is PRESUMED (log
96). -/
def scramOut (st : BitVec 58) : Bool := bit st 57 != bit st 38

/-- The state after one bit. -/
def scramStep (st : BitVec 58) : BitVec 58 := (st <<< 1) ||| BitVec.ofNat 58 (b2n (scramOut st))

/-- Codeword bits scrambled, or descrambled: each is exclusive-ORed with the scrambler's output. -/
def scramble : BitVec 58 → List Bool → List Bool
  | _, [] => []
  | st, x :: xs => (x != scramOut st) :: scramble (scramStep st) xs

/-! ### The stuffer (R278) -/

/-- The length of the run that a bit x ends, after r bits equal to b. -/
def runLen (r : Nat) (b x : Bool) : Nat := if x = b then r + 1 else 1

/-- Bits with one of the opposite value inserted after any 64 equal ones; r bits equal to b stand before them. -/
def stuff : Nat → Bool → List Bool → List Bool
  | _, _, [] => []
  | r, b, x :: xs => if runLen r b x = 64 then x :: (!x) :: stuff 1 (!x) xs else x :: stuff (runLen r b x) x xs

/-- The first n bits behind a stuffer: the bit that follows each run of 64 equal ones is removed. -/
def unstuff : Nat → Nat → Bool → List Bool → List Bool
  | 0, _, _, _ => []
  | _ + 1, _, _, [] => []
  | n + 1, r, b, x :: xs =>
    if runLen r b x = 64 then x :: unstuff n 1 (xs.headD false) xs.tail else x :: unstuff n (runLen r b x) x xs

/-! ### A frame on the line (R276) -/

/-- The 2,400 bits of a codeword of 280 bytes: its data, then the parity of RS(240,224), whose value the manual's words do not fix
(FREE VALUE, log 96). -/
def codeword (bs : List Byte) : List Bool :=
  let d := bitsOf bs
  d ++ (List.range (codeBits - codeData)).map (fun i => Config.rsParity (bs.map BitVec.toNat) i)

/-- The 7,200 codeword bits of a payload. -/
def codewords (payload : List Byte) : List Bool := (List.range 3).flatMap (fun c => codeword (slice0 payload (280 * c) 280))

/-- The 8,192 line bits of a frame that a lane sends. -/
def lineBits (compact : Bool) (lane : Nat) (payload : List Byte) : List Bool :=
  let l := frameHead compact ++ stuff 0 false (scramble (scramSeed lane) (codewords payload))
  l ++ alternate (frameBits - l.length) (!(l.getLastD false))

/-- The 7,200 codeword bits of a received frame of a partner's lane. -/
def unline (lane : Nat) (frame : List Bool) : List Bool :=
  scramble (scramSeed lane) (unstuff (3 * codeBits) 0 false (frame.drop 128))

/-- What the decoder makes of a codeword: right as received, put right by inverting some of its bits, or uncorrectable. RS(240,224)
puts right at most eight symbols of ten bits. -/
def decodeOne (f : Fec) (w : List Bool) : Option (List Bool) :=
  match f with
  | .clean => some w
  | .bad => none
  | .fixed l =>
    if 8 < ((l.map (fun i => i / 10)).eraseDups).length then none
    else some ((List.range w.length).map (fun i => w.getD i false != l.contains i))

/-- Codeword c of a frame, decoded. -/
def decodeWordC (lane : Nat) (frame : List Bool) (fec : List Fec) (c : Nat) : Option (List Bool) :=
  decodeOne (fec.getD c .bad) (((unline lane frame).drop (codeBits * c)).take codeBits)

/-- The 840 payload bytes of a frame, if all three codewords decode. -/
def linePayload (lane : Nat) (frame : List Bool) (fec : List Fec) : Option (List Byte) :=
  match decodeWordC lane frame fec 0, decodeWordC lane frame fec 1, decodeWordC lane frame fec 2 with
  | some a, some b, some c => some (bytesOfBits 840 (a.take codeData ++ b.take codeData ++ c.take codeData))
  | _, _, _ => none

/-- The frame phase of comma framing: the bits from the first comma word on; with none in the first n places, what follows them. -/
def seekComma : Nat → List Bool → List Bool
  | 0, l => l
  | n + 1, l => if commaWord.isPrefixOf l then l else seekComma n l.tail

end Sys2Proof.Machine
end

