-- ==== Sys2Proof/Machine/Fabric.lean ====
section
/-! DEFINITION. Fabric links: lane states, link frames, control messages, credits, loss, and the cell schedule of the
virtual output queues (chapter 10; R242, R243). -/

namespace Sys2Proof.Machine

/-! ### Lanes -/

/-- Quadrant of a device lane, and its number there. -/
def laneQuad (l : Nat) : Nat := l / 128
def laneIn (l : Nat) : Nat := l % 128

/-- An event of the lane's quadrant. -/
def State.fabEv (s : State) (l n : Nat) : State := s.setEv (Reg.fabEvents (laneQuad l)) n

/-- A fabric lane of the device (R273). -/
def State.isLane (s : State) (l : Nat) : Bool := decide (l < 512) && s.laneFabric l

/-- COMPACT of the lane's quadrant (R283). -/
def State.compact (s : State) (l : Nat) : Bool := s.cfgB (Reg.fabCtl (laneQuad l)) 0

/-- RATE of a fabric lane. -/
def State.laneRate (s : State) (l : Nat) : Nat := s.cfgF (Reg.fabLaneCfg (laneQuad l) (laneIn l)) 27 26

/-- A lane begins to train: what it knew of its partner goes, its CAUSE stays (log 46). -/
def Lane.train (x : Lane) : Lane :=
  { Lane.reset with
    state := .training, cause := x.cause, partFe := x.partFe, partDev := x.partDev, partLane := x.partLane, rtt := x.rtt }

/-- A lane enters a state at the next boundary, with a CAUSE (R288). -/
def State.laneDue (s : State) (l : Nat) (st : LaneState) (cause : Nat) : State :=
  s.setLane l { s.lane l with due := some (st, cause) }

/-- The highest version common to two ranges (R286). -/
def commonVer (lo hi lo' hi' : Nat) : Option Nat :=
  let v := min hi hi'
  if max lo lo' ≤ v then some v else none

/-- A version offers a rate (Table 10.4). -/
def verRate (v rate : Nat) : Bool := decide (rate + 3 ≤ v) && decide (rate ≤ 2)

/-- Why training does not end, the lowest code first (R275, R283, R285 to R287; the order is DEDUCED). -/
def trainCause (ver : Option Nat) (rate : Nat) (frameOk freqBad crossed : Bool) : Nat :=
  match ver with
  | none => 1
  | some v =>
    if verRate v rate = false then 2 else if frameOk = false then 3 else if freqBad then 4 else if crossed then 5 else 0

/-- FAB_TRAINING_DONE (R275, R285 to R287): the partner that the training frames name, what they say, and whether the receive pair
is inverted. The lane enters ALIGNING at the next boundary, or stays with a CAUSE. -/
def execFabTrainingDone (lane : Nat) (partnerDev : BitVec 6) (partnerLane : BitVec 9) (fe : Bool) (minVer maxVer : Nat)
    (compact freqBad : Bool) (pair : PairFaults) (rtt : BitVec 24) (s : State) : Res :=
  if s.isLane lane = false ∨ (s.lane lane).state ≠ .training then .next s
  else
    let q := laneQuad lane
    let ver := commonVer (s.cfgF (Reg.fabCtl q) 11 8) (s.cfgF (Reg.fabCtl q) 19 16) minVer maxVer
    let cause := trainCause ver (s.laneRate lane) (compact == s.compact lane) freqBad pair.crossed
    let s0 := s.setRegF (Reg.octLaneStatus (lane / 8) (lane % 8)) 30 30 (b2n pair.inverted)
    let x := { s0.lane lane with partDev := partnerDev.toNat, partLane := partnerLane.toNat, partFe := fe }
    if cause = 0 then .next (s0.setLane lane { x with ver := ver.getD 0, cause := 0, rtt := rtt, due := some (.aligning, 0) })
    else .next ((s0.setLane lane { x with cause := cause }).fabEv lane 3)

/-- COMMA_LOCK (R282): 16 consecutive commas have been found; the lane enters TESTING at the next boundary. -/
def execCommaLock (lane : Nat) (s : State) : Res :=
  if s.isLane lane = true ∧ (s.lane lane).state = .aligning ∧ s.compact lane = false ∧ 16 ≤ (s.lane lane).commas then
    .next (s.laneDue lane .testing (s.lane lane).cause)
  else .next s

/-- A compact lane that seeks its phase takes BITSLIP and ALIGN_DONE (R284). -/
def State.slips (s : State) (l : Nat) : Bool := s.isLane l && (s.lane l).state == .aligning && s.compact l

/-- FAB_LANE_CTL of a lane. -/
def laneCtl (l : Nat) : Nat := Reg.fabLaneCtl (laneQuad l) (laneIn l)

/-- A write of BITSLIP = 1: it acts at the next boundary. -/
def State.bitslipWrite (s : State) (l : Nat) : State := if s.slips l then s.setEv (laneCtl l) 0 else s

/-- FRAME_CHK. -/
def Lane.frameChk (x : Lane) : Nat := (x.last16.filter (fun b => b)).length

/-- A write of ALIGN_DONE = 1: it acts at the next boundary, if the last 16 frames passed. -/
def State.alignDoneWrite (s : State) (l : Nat) : State :=
  if s.slips l && decide ((s.lane l).frameChk = 16) then s.setEv (laneCtl l) 1 else s

/-- BITSLIP (R282). -/
def execBitslip (lane : Nat) (s : State) : Res := .next (s.bitslipWrite lane)

/-- ALIGN_DONE (R284). -/
def execAlignDone (lane : Nat) (s : State) : Res := .next (s.alignDoneWrite lane)

/-- FAB_RETRAIN (R288): the write of RETRAIN; the lane trains from the next boundary. -/
def execFabRetrain (lane : Nat) (s : State) : Res :=
  if s.laneNamed lane then .next (s.setEv (laneCtl lane) 2) else .next s

/-- FAB_TEST_PASS (R288): with this tick, 1,024 consecutive ticks have passed without a failing frame. TICK_BOUNDARY finds it where
this command has not told it. -/
def execFabTestPass (lane : Nat) (s : State) : Res :=
  let x := s.lane lane
  if s.isLane lane = true ∧ x.state = .testing ∧ 1024 ≤ x.testTicks + 1 ∧ x.due = none then .next (s.laneDue lane .inService 0)
  else .next s

/-- FAB_LANE_DISABLE (R291): the write of EN = 0. -/
def execFabLaneDisable (lane : Nat) (s : State) : Res :=
  if s.laneNamed lane then .next (s.setRegF (Reg.fabLaneCfg (laneQuad lane) (laneIn lane)) 31 31 0) else .next s

/-- A lane enters DISABLED. -/
def State.laneOff (s : State) (l : Nat) : State := (s.setLane l { Lane.reset with cause := (s.lane l).cause }).eyeCheck (l / 8)

/-- EN of a lane. -/
def State.laneEn (s : State) (l : Nat) : Bool := s.isLane l && s.cfgB (Reg.fabLaneCfg (laneQuad l) (laneIn l)) 31

/-- FAB_GRACEFUL_END (R291, R409): with this tick, 16 ticks of empty frames have been sent: the lane is to be DISABLED, or with
EN = 1 to train again. -/
def execFabGracefulEnd (lane : Nat) (s : State) : Res :=
  match (s.lane lane).graceful with
  | none => .next s
  | some t =>
    if t + 16 ≤ s.now + 1 then
      .next (s.laneDue lane (if s.laneEn lane then .training else .disabled) (s.lane lane).cause)
    else .next s

/-- A lane leaves service for DOWN with a CAUSE. -/
def State.laneDown (s : State) (l cause : Nat) : State :=
  (s.setLane l { s.lane l with state := .down, due := none, cause := cause, partReady := false, inSpray := false, graceful := none
                 }).eyeCheck (l / 8)

/-- Uncorrectable codewords of the 64 ticks before the one that begins with number n. -/
def State.laneErrs (s : State) (l n : Nat) : Nat := ((s.lane l).errs.filter (fun t => decide (n ≤ t + 64))).length

/-- Ticks, with the one that ends, in which no frame has passed. -/
def Lane.idleNow (x : Lane) : Nat := if x.passed then 0 else x.idleTicks + 1

/-- Why a lane in service is to be declared lost at the boundary that begins tick n (R291, R298): 6 LOSS, 7 ERRORS, 0 none. R298 does
not apply once the partner has sent READY = 0. -/
def State.lossCause (s : State) (l n : Nat) : Nat :=
  let q := laneQuad l
  let lim := s.cfgF (Reg.fabLoss q) 15 0
  if (s.lane l).partReady = false then 0
  else if max 1 (s.cfgF (Reg.fabLoss q) 27 24) ≤ (s.lane l).idleNow then 6
  else if lim ≠ 0 ∧ lim ≤ s.laneErrs l n then 7
  else 0

/-- At a boundary the receive direction of a lane is declared lost (R228, R298, R299). -/
def State.declareLane (s : State) (l cause : Nat) : State :=
  let s1 := ((s.laneDown l cause).fabEv l 1).noticeAt 0x0023 (nsOf (s.oAt 0)) (beBytes 2 l ++ [BitVec.ofNat 8 cause, 0])
  let s2 := s1.vigilRaise 0x0011 l ((vigReason 0x0011).elim 0 (fun b => 2 ^ b)) false (nsOf (s.oAt 0))
  let stop := s2.now + s2.cfgF (Reg.fabLoss (laneQuad l)) 23 16 + s2.cfgF Reg.coreReseq 23 16
  let s3 := { s2 with core := { s2.core with fabEnd := max s2.core.fabEnd stop } }
  (s3.setEv Reg.coreEvents 2).skipOpen (fun k => s3.ctxFar k)

/-- LINK_LOST (R298): with this tick a cause of loss has arisen; the lane is declared lost at the next boundary. TICK_BOUNDARY finds
it where this command has not told it. -/
def execLinkLost (lane : Nat) (s : State) : Res :=
  if s.isLane lane = true ∧ (s.lane lane).state = .inService ∧ s.lossCause lane (s.now + 1) ≠ 0 then
    .next (s.laneDue lane .down (s.lossCause lane (s.now + 1)))
  else .next s

/-- PHASE_WANDER_EXCEEDED (R275): the lane leaves service at the next boundary. -/
def execPhaseWanderExceeded (lane : Nat) (s : State) : Res :=
  if s.isLane lane = true ∧ (s.lane lane).state = .inService then .next (s.laneDue lane .down 8) else .next s

/-! ### Usable sets (R289, R290, R293) -/

/-- The transmit direction of a lane is usable. -/
def State.laneUsable (s : State) (l : Nat) : Bool :=
  let x := s.lane l
  s.isLane l && x.state == .inService && x.partReady && x.graceful.isNone

/-- A lane leads to a device. -/
def Lane.leads (x : Lane) (d : Nat) : Bool := if x.partFe then decide (4 ≤ x.ver) && bit x.reach d else decide (x.partDev = d)

/-- U_d: the lanes of the spray sets that lead to a device, in ascending lane number. -/
def State.usableTo (s : State) (d : Nat) : List Nat :=
  (s.fabric.lanes.filter (fun x => x.2.inSpray && x.2.leads d)).map (fun x => x.1)

/-! ### Control messages (R281, R295 to R297) -/

/-- The contexts toward or from a device: destination slice and class. -/
def devCtxs (d : Nat) : List Nat := (List.range 64).map (fun i => 64 * d + i)

/-- The credit context of a source. -/
def State.srcCredit (s : State) (k : Nat) : SrcCredit := SMap.find ⟨0, 0, false⟩ s.fabric.src k

/-- Replace it. -/
def State.setSrcCredit (s : State) (k : Nat) (c : SrcCredit) : State :=
  { s with fabric := { s.fabric with src := SMap.set ⟨0, 0, false⟩ s.fabric.src k c } }

/-- TOTAL of the credit context of a destination. -/
def State.total (s : State) (k : Nat) : BitVec 16 := (SMap.find ⟨0, 0⟩ s.fabric.dst k).total

/-- The six bytes of a CREDIT message to device d for context k. -/
def State.creditMsg (s : State) (d k : Nat) : List Byte :=
  [1, BitVec.ofNat 8 d, BitVec.ofNat 8 (k / 8 % 8 * 16 + k % 8)] ++ beBytes 2 (s.total k).toNat ++ [BitVec.ofNat 8 s.devId]

/-- The six bytes of a CREDIT_RESET message to device d. -/
def State.resetMsg (s : State) (d : Nat) : List Byte := [3, BitVec.ofNat 8 d, 0, 0, 0, BitVec.ofNat 8 s.devId]

/-- A link usable toward a device, if there is one. Which of them carries a message is a FREE VALUE. -/
def State.msgLane (s : State) (d : Nat) : Option Nat :=
  let u := s.usableTo d
  u[(Config.freeWord s.free).toNat % u.length]?

/-- Messages go out toward a device in the next frames of a link, where one is usable. -/
def State.sendMsgs (s : State) (d : Nat) (ms : List (List Byte)) : State :=
  match s.msgLane d with
  | none => s
  | some l => (s.setLane l { s.lane l with msgs := (s.lane l).msgs ++ ms }).nextFree

/-- The devices whose usable set has become empty are remembered (R297). -/
def State.noteGone (s : State) : State :=
  { s with fabric := { s.fabric with
    gone := s.fabric.gone ++ s.fabric.had.filter (fun d => s.usableTo d == [] && !s.fabric.gone.contains d) } }

/-- CREDIT from a granting device (R296, R297). -/
def State.creditIn (s : State) (lane target slice tc : Nat) (total : BitVec 16) (granting : Nat) : State :=
  if target ≠ s.devId then s
  else
    let k := creditKey granting slice tc
    let c := s.srcCredit k
    if c.wait then
      if total = 0 then
        let s1 := s.setSrcCredit k ⟨16 * (s.cfgF (Reg.fabCredit 0) 31 16 : Int) - 16 * (s.fabric.init : Int), 0, false⟩
        if (devCtxs granting).any (fun j => (s1.srcCredit j).wait) then s1
        else { s1 with fabric := { s1.fabric with resets := s1.fabric.resets.filter (fun d => decide (d ≠ granting)) } }
      else s
    else
      let d := (total - c.last).toNat
      if d < 32768 then s.setSrcCredit k { c with avail := c.avail + 16 * (d : Int), last := total }
      else (s.bump (Reg.fabStaleCnt (laneQuad lane)) 1).fabEv lane 4

/-- REACH from a fabric element (R293). A version-3 partner sends none. -/
def State.reachIn (s : State) (lane : Nat) (upper : Bool) (map : Word32) : State :=
  let x := s.lane lane
  if x.partFe && decide (4 ≤ x.ver) then
    (s.setLane lane { x with
      reach := if upper then map ++ x.reach.extractLsb' 0 32 else x.reach.extractLsb' 32 32 ++ map }).noteGone
  else s

/-- The cells from a device held by a resequencer context are discarded with PATH_LOST. How many packets they were is a FREE
VALUE from 1 to their number (log 34). -/
def State.discardHeld (s : State) (k : Nat) : State :=
  let x := s.reseq k
  if x.held = [] then s
  else
    let n := 1 + (Config.freeWord s.free).toNat % x.held.length
    ((s.setReseq k { x with held := [], gap := none }).addCtr (dropCtr (ctxSite k) 0x55) n).nextFree

/-- CREDIT_RESET from a device (R297). -/
def State.creditResetIn (s : State) (target sending : Nat) : State :=
  if target ≠ s.devId then s
  else
    let ctxs := (s.core.ctx.map (fun x => x.1)).filter (fun k => s.ctxFar k && decide (s.ctxDev k = sending))
    let s1 := ctxs.foldl (fun x k => x.discardHeld k) s
    let s2 := { s1 with fabric := { s1.fabric with dst := s1.fabric.dst.filter (fun x => decide (x.1 / 64 ≠ sending)) } }
    s2.sendMsgs sending ((devCtxs sending).map (fun k => s2.creditMsg sending k))

/-- A lane carries control messages: its frames are descrambled from TESTING on. -/
def State.laneTalks (s : State) (l : Nat) : Bool :=
  s.isLane l && ((s.lane l).state == .testing || (s.lane l).state == .inService)

/-- A control message of six bytes (Table 10.3). -/
def State.fabMsg (s : State) (lane : Nat) (m : List Byte) : State :=
  let b := fun i => (m.getD i 0).toNat
  match b 0 with
  | 0 => s
  | 1 => s.creditIn lane (b 1 % 64) (b 2 / 16 % 8) (b 2 % 8) (BitVec.ofNat 16 (256 * b 3 + b 4)) (b 5 % 64)
  | 2 => s.reachIn lane (bit (m.getD 1 0) 0) (BitVec.ofNat 32 (beNat (m.drop 2 |>.take 4)))
  | 3 => s.creditResetIn (b 1 % 64) (b 5 % 64)
  | _ => (s.bump (Reg.fabUnknownCnt (laneQuad lane)) 1).fabEv lane 0

/-- CREDIT (R296). -/
def execCredit (lane : Nat) (target : BitVec 6) (slice : Fin 8) (tc : Fin 8) (total : BitVec 16) (granting : BitVec 6)
    (s : State) : Res :=
  if s.laneTalks lane then .next (s.creditIn lane target.toNat slice.val tc.val total granting.toNat) else .next s

/-- REACH (R293). -/
def execReach (lane : Nat) (upper : Bool) (map : Word32) (s : State) : Res :=
  if s.laneTalks lane then .next (s.reachIn lane upper map) else .next s

/-- CREDIT_RESET (R297). -/
def execCreditReset (lane : Nat) (target sending : BitVec 6) (s : State) : Res :=
  if s.laneTalks lane then .next (s.creditResetIn target.toNat sending.toNat) else .next s

/-- CREDIT_REFRESH (R296, R297): the totals of a device's contexts are sent again, and CREDIT_RESET while its answers are
awaited, in every phase from HOST_UP onward (R407). When the interval expires is the sender's to judge. -/
def execCreditRefresh (dev : BitVec 6) (s : State) : Res :=
  let d := dev.toNat
  let resets := if s.fabric.resets.contains d then [s.resetMsg d] else []
  if 5 ≤ s.boot.phase.code ∧ s.boot.phase.code ≤ 9 then .next (s.sendMsgs d (resets ++ (devCtxs d).map (fun k => s.creditMsg d k))) else .next s

/-! ### Link frames received (R279, R280, R294) -/

/-- CRC-16 of a cell header (section 1 of chapter 8): polynomial 0x1021, initial value 0xFFFF. -/
def crc16Step (crc : BitVec 16) (b : Byte) : BitVec 16 :=
  (List.range 8).foldl (fun (c : BitVec 16) _ => if bit c 15 then (c <<< 1) ^^^ 0x1021 else c <<< 1)
    (crc ^^^ (b.zeroExtend 16 <<< 8))

/-- HCRC over bytes. -/
def crc16 (bs : List Byte) : BitVec 16 := bs.foldl crc16Step 0xFFFF

/-- The control word CRC holds. -/
def ctlOk (w : List Byte) : Bool :=
  decide (w.length = 24) && decide (BitVec.ofNat 32 (beNat (w.drop 20)) = crc32 polyC (w.take 20))

/-- A cell of a passing frame: header and 256 data bytes. One whose HCRC fails is counted and discarded (R279); others enter the core
while the lane is in service and the device forwards (R294). -/
def State.cellIn (s : State) (lane : Nat) (c : List Byte) : State :=
  let b := fun i => (c.getD i 0).toNat
  if BitVec.ofNat 16 (256 * b 14 + b 15) ≠ crc16 (c.take 14) then
    s.bump (Reg.fabLaneHcrc (laneQuad lane) (laneIn lane)) 1
  else if (s.lane lane).state ≠ .inService ∨ s.flowing = false ∨ b 7 ≠ 0 ∨ b 6 % 64 ≠ s.devId then s
  else
    s.sprayCell (8 + laneQuad lane)
      { pkt := 0, first := bit (c.getD 0 0) 7, last := bit (c.getD 0 0) 6
        expr := bit (c.getD 0 0) 5 && decide ((s.lane lane).ver ≠ 3), tc := b 0 % 8
        seq := BitVec.ofNat 16 (256 * b 2 + b 3), srcDev := b 4 % 64, srcSl := b 5 / 16 % 8, dstSl := b 5 % 8, kind := 0
        plane := 0, tick := 0, buf := none, copy := false, data := (c.drop 16).take (b 1 + 1) }

/-- The cells of a passing frame. -/
def State.frameCells (s : State) (lane : Nat) (payload : List Byte) : State :=
  (List.range 3).foldl (fun x i =>
    if bit (payload.getD 4 0) (7 - i) then x.cellIn lane ((payload.drop (24 + 272 * i)).take 272) else x) s

/-- A passing frame acts: READY, the messages, the cells. -/
def State.framePass (s : State) (lane : Nat) (payload : List Byte) : State :=
  let s1 := s.setLane lane { s.lane lane with partReady := bit (payload.getD 0 0) 7, passed := true }
  let s2 := (s1.fabMsg lane ((payload.drop 6).take 6)).fabMsg lane ((payload.drop 12).take 6)
  s2.frameCells lane payload

/-- A frame that fails from TESTING on: it is counted, and fails a test at the next boundary. -/
def State.frameFail (s : State) (lane : Nat) : State :=
  let s1 := s.bump (Reg.fabLaneChkFail (laneQuad lane) (laneIn lane)) 1
  if (s.lane lane).state = .testing then s1.laneDue lane .training 9 else s1

/-- A whole frame has been received (R279). -/
def State.frameDone (s : State) (lane : Nat) (frame : List Bool) (fec : List Fec) : State :=
  let x := s.lane lane
  let q := laneQuad lane
  let i := laneIn lane
  let got := (List.range 3).map (decodeWordC x.partLane frame fec)
  let bad := (got.filter (fun w => w.isNone)).length
  let fixed := ((List.range 3).filter (fun c => (got.getD c none).isSome && decide (fec.getD c .bad ≠ .clean))).length
  let payload := (linePayload x.partLane frame fec).getD []
  let ok := (linePayload x.partLane frame fec).isSome && ctlOk (payload.take 24)
  let s1 := (s.bump (Reg.fabLaneCwCorr q i) fixed).bump (Reg.fabLaneCwUncorr q i) bad
  let s2 := s1.setLane lane { x with
    last16 := (x.last16 ++ [ok]).drop ((x.last16.length + 1) - 16)
    errs := x.errs.filter (fun t => decide (s.now ≤ t + 64)) ++ List.replicate bad s.now
    commas := if s.compact lane = false ∧ frame.take 128 = commaWord then x.commas + 1 else 0 }
  if x.state = .aligning then s2
  else if ok then s2.framePass lane payload
  else s2.frameFail lane

/-- The line bits of a lane from its next frame boundary on, when more have come: each slip delays the boundary by one bit, and in
comma framing a lane that is aligning looks for the comma word (R282). -/
def State.lineFrom (s : State) (lane : Nat) (line : List Byte) : List Bool :=
  let x := s.lane lane
  let l := (x.rx ++ bitsOf line).drop x.slip
  if x.state = .aligning ∧ s.compact lane = false then seekComma (l.length - 127) l else l

/-- What the decoder makes of the three codewords of a frame: the bits that it puts right in each, and the uncorrectable ones. -/
def fecOf (corrected : List (List Nat)) (uncorrectable : BitVec 3) : List Fec :=
  (List.range 3).map (fun c =>
    if bit uncorrectable c then .bad else match corrected.getD c [] with
      | [] => .clean
      | l => .fixed l)

/-- LINK_FRAME_RECEIVE (R276 to R282): the next 8,192 bits of a lane's line, and what the decoder makes of the three codewords of the
frame that they complete. -/
def execLinkFrameReceive (lane : Nat) (corrected : List (List Nat)) (uncorrectable : BitVec 3) (line : List Byte) (s : State) : Res :=
  let x := s.lane lane
  if s.isLane lane = false ∨ ¬(x.state = .aligning ∨ x.state = .testing ∨ x.state = .inService) ∨ line.length ≠ 1024 then .next s
  else
    let l := s.lineFrom lane line
    if l.length < frameBits then .next (s.setLane lane { x with rx := l, slip := 0 })
    else .next ((s.setLane lane { x with rx := l.drop frameBits, slip := 0 }).frameDone lane (l.take frameBits)
      (fecOf corrected uncorrectable))

/-! ### Boundaries -/

/-- A lane trains again at a boundary. -/
def State.laneTrain (s : State) (l cause : Nat) : State :=
  (s.setLane l { (s.lane l).train with cause := cause }).eyeCheck (l / 8)

/-- A lane begins its test, or enters service (R288). -/
def State.laneEnter (s : State) (l : Nat) (st : LaneState) : State :=
  let s1 := s.setLane l { s.lane l with
    state := st, due := none, testTicks := 0, idleTicks := 0, passed := true, errs := [], last16 := if st = .aligning then [] else (s.lane l).last16 }
  if st = .inService then s1.fabEv l 2 else s1

/-- At a boundary BITSLIP and ALIGN_DONE act, and the device clears them (R282, R284). -/
def State.slipTick (s : State) (l : Nat) : State :=
  let x := s.lane l
  let s1 := if s.cfgB (laneCtl l) 0 then
      (if s.slips l then s.setLane l { x with slip := x.slip + 1, last16 := [] } else s).clrBit (laneCtl l) 0
    else s
  if s1.cfgB (laneCtl l) 1 then (if s1.slips l then s1.laneDue l .testing (s1.lane l).cause else s1).clrBit (laneCtl l) 1 else s1

/-- The 16 ticks of empty frames of a lane have been sent. -/
def State.gracefulOut (s : State) (l : Nat) : Bool := (s.lane l).graceful.any (fun t => decide (t + 16 ≤ s.now))

/-- At a boundary a lane enters the state that is due, is declared lost, or passes its test (R288, R298). -/
def State.laneMove (s : State) (l : Nat) : State :=
  let x := s.lane l
  match x.due with
  | some (.training, c) => if c = 9 then (s.laneTrain l c).fabEv l 3 else s.laneTrain l x.cause
  | some (.down, c) => if c = 8 then s.laneDown l 8 else s.declareLane l c
  | some (st, _) => s.laneEnter l st
  | none =>
    if x.state = .down then s.laneTrain l x.cause
    else if x.state = .testing then
      (if 1024 ≤ x.testTicks + 1 then (s.setLane l { x with cause := 0 }).laneEnter l .inService
       else s.setLane l { x with testTicks := x.testTicks + 1 })
    else if x.state = .inService ∧ x.graceful = none ∧ s.lossCause l s.now ≠ 0 then s.declareLane l (s.lossCause l s.now)
    else s.setLane l { x with idleTicks := x.idleNow, passed := false }

/-- At a boundary a lane's EN, RETRAIN and DOWN act, its tick counters move, and its transmit direction joins or leaves the
spray sets (R288, R290, R291). Lanes train from HOST_UP onward. -/
def State.laneTick (s : State) (l : Nat) : State :=
  let s0 := s.slipTick l
  let again := s0.cfgB (laneCtl l) 2
  let s1 := if again then s0.clrBit (laneCtl l) 2 else s0
  let x := s1.lane l
  let s2 :=
    if x.state = .disabled then (if s1.laneEn l = true ∧ 5 ≤ s1.boot.phase.code then s1.laneTrain l x.cause else s1)
    else if s1.laneEn l = false ∧ ¬(x.state = .inService ∧ s1.isLane l = true) then s1.laneOff l
    else if again then s1.laneTrain l x.cause
    else if s1.gracefulOut l then (if s1.laneEn l then s1.laneTrain l x.cause else s1.laneOff l)
    else if s1.laneEn l = false ∧ x.graceful = none then s1.setLane l { x with graceful := some s1.now, due := none }
    else s1.laneMove l
  s2.setLane l { s2.lane l with inSpray := s2.laneUsable l }

/-- U_d became empty and is not empty again: the source resets its contexts toward d (R297). -/
def State.resetDev (s : State) (d : Nat) : State :=
  let s1 := { s with fabric := { s.fabric with
    resets := s.fabric.resets.filter (fun y => decide (y ≠ d)) ++ [d]
    src := (devCtxs d).foldl (fun (m : SMap SrcCredit) k =>
      let c : SrcCredit := SMap.find ⟨0, 0, false⟩ m k
      SMap.set ⟨0, 0, false⟩ m k { c with wait := true }) s.fabric.src } }
  s1.sendMsgs d [s1.resetMsg d]

/-- At a boundary the lanes and the usable sets change. -/
def State.lanesTick (s : State) : State :=
  let s1 := ((List.range 512).foldl (fun x l => x.laneTick l) s).noteGone
  let now := (List.range 64).filter (fun d => s1.usableTo d != [])
  let back := now.filter (fun d => s1.fabric.gone.contains d)
  let s2 := { s1 with fabric := { s1.fabric with
    had := s1.fabric.had ++ now.filter (fun d => !s1.fabric.had.contains d)
    gone := s1.fabric.gone.filter (fun d => !back.contains d) } }
  back.foldl (fun x d => x.resetDev d) s2

/-- The credit contexts at ENABLE (R295). -/
def State.creditsInit (s : State) : State :=
  { s with fabric := { s.fabric with init := s.cfgF (Reg.fabCredit 0) 31 16, src := [], dst := [], resets := [] } }

/-! ### Link frames sent (R276, R280, R285, R289, R292) -/

/-- Line bits of a lane in a tick, with FREF at its nominal rate (DEDUCED, log 97). -/
def State.laneBits (s : State) (l : Nat) : Nat := 17000 * 2 ^ s.laneRate l

/-- The frames that a lane begins in a tick, and the line bits of the next tick before its first frame. -/
def framesIn (first total : Nat) : Nat × Nat :=
  let n := (total + frameBits - 1 - first) / frameBits
  (n, first + frameBits * n - total)

/-- The device sends READY = 1 on a lane exactly while its receive direction is in service (R289), and not in its graceful end
(R291). -/
def Lane.ready (x : Lane) : Bool := x.state == .inService && x.graceful.isNone

/-- The control word of a frame with n cells and two messages (Table 10.2). -/
def State.ctlWord (s : State) (l n : Nat) (m0 m1 : List Byte) : List Byte :=
  let w := [BitVec.ofNat 8 (128 * b2n (s.lane l).ready), BitVec.ofNat 8 s.now] ++ beBytes 2 (1024 * s.devId + l) ++
    [BitVec.ofNat 8 (256 - 2 ^ (8 - min 3 n)), 0] ++ m0 ++ m1 ++ [0, 0]
  w ++ beBytes 4 (crc32 polyC w).toNat

/-- A message of no type. -/
def noMsg : List Byte := List.replicate 6 0

/-- The 840 bytes of the next frame of a lane: control word and three slots, the empty ones zero (R276, R280). -/
def State.framePayload (s : State) (l : Nat) (slots msgs : List (List Byte)) : List Byte :=
  s.ctlWord l (slots.take 3).length (msgs.getD 0 noMsg) (msgs.getD 1 noMsg) ++
    (List.range 3).flatMap (fun i => slots.getD i (List.replicate 272 0))

/-- n frames of a lane: the cells of the tick go in the first slots, and two messages in each frame (R292). -/
def State.laneFrames (s : State) (l : Nat) : Nat → List (List Byte) → List (List Byte) → List (List Byte)
  | 0, _, _ => []
  | n + 1, slots, msgs =>
    bytesOfBits 1024 (lineBits (s.compact l) l (s.framePayload l slots msgs)) :: s.laneFrames l n (slots.drop 3) (msgs.drop 2)

/-- The training frame of a lane (R285). -/
def State.trainFrame (s : State) (l : Nat) : TrainFrame :=
  { dev := s.devId, lane := l, fe := false, minVer := s.cfgF (Reg.fabCtl (laneQuad l)) 11 8,
    maxVer := s.cfgF (Reg.fabCtl (laneQuad l)) 19 16, rate := s.laneRate l, compact := s.compact l, heard := (s.lane l).partLane }

/-- What a lane sends in a tick: training frames in TRAINING (one stands for those of the tick), link frames from then on. -/
def State.laneSend (s : State) (l : Nat) : State :=
  let x := s.lane l
  if x.state = .disabled then s
  else if x.state = .training then s.emit (.training l (s.trainFrame l))
  else
    let (n, bits) := framesIn x.txBits (s.laneBits l)
    { s with out := s.out ++ (s.laneFrames l n x.slots x.msgs).map (fun f => Out.link l f) }.setLane l
      { x with txBits := bits, slots := [], msgs := x.msgs.drop (2 * n) }

/-- What every lane sends in a tick. -/
def State.lanesSend (s : State) : State := (s.fabric.lanes.map (fun x => x.1)).foldl State.laneSend s

/-! ### The cell schedule (R215, R242, R243, R292, R293) -/

/-- Cells that a lane places in a tick (Table 10.6). -/
def State.laneRoom (s : State) (l : Nat) : Nat :=
  match s.laneRate l with
  | 0 => 6
  | 1 => 12
  | _ => 24

/-- Bytes of a packet on a fabric link: call slip, frame, FCS (R215). -/
def Pkt.fabBytes (p : Pkt) : List Byte :=
  let f := (List.range 128).map (fun i => slipByte p.slip i) ++ p.data
  if p.ended then f ++ leBytes 4 (crc32 polyEth p.data).toNat else f

/-- Cell i of a packet can leave: it is whole, or the last of a frame that has ended. -/
def Pkt.fabReady (p : Pkt) (i : Nat) : Bool := p.ended || decide (256 * (i + 1) ≤ 128 + p.data.length)

/-- What the schedule of a tick has used: cells placed on each lane, cells placed toward each device. -/
structure Sched where
  used : SMap Nat
  sent : SMap Nat
  deriving DecidableEq, Repr

/-- The link of U_d for the next cell toward d (R293). -/
def State.pickLink (s : State) (c : Sched) (d : Nat) : Option Nat :=
  let u := s.usableTo d
  let k := u.length
  let at' := SMap.find 0 c.sent d + s.now
  ((List.range k).map (fun i => u.getD ((at' + i) % k) 0)).find? (fun l => decide (SMap.find 0 c.used l < s.laneRoom l))

/-- AVAILABLE covers the next cell of a virtual output queue, and no answer to a reset is awaited (R243, R295, R297). -/
def State.voqCredited (s : State) (k : Nat) : Bool :=
  let c := s.srcCredit (voqCredit k)
  decide (0 < 16 * (s.fabric.init : Int) + c.avail) && !c.wait && !s.fabric.resets.contains (voqDev k)

/-- Drop the packets at the head of a virtual output queue that are marked bad (R135). -/
def State.voqPurge (s : State) (k : Nat) : Nat → State
  | 0 => s
  | n + 1 =>
    let v := s.voqAt k
    match v.pkts with
    | [] => s
    | p :: rest =>
      match p.bad with
      | none => s
      | some code => ((s.setVoq k ⟨rest, 0⟩).dropIn p (voqSlice k) code).voqPurge k n

/-- The header of a cell on a fabric link (Table 8.1). -/
def State.fabHeader (s : State) (k l i len : Nat) (last : Bool) (p : Pkt) (seq : BitVec 16) (plane : Nat) : List Byte :=
  let expr := s.express p.tc && decide ((s.lane l).ver ≠ 3)
  let h := [BitVec.ofNat 8 (128 * b2n (decide (i = 0)) + 64 * b2n last + 32 * b2n expr + (slipByte p.slip 0x07).toNat % 32),
      BitVec.ofNat 8 (len - 1)] ++ beBytes 2 seq.toNat ++
    [BitVec.ofNat 8 s.devId, BitVec.ofNat 8 (16 * voqSlice k + k / 8 % 8), BitVec.ofNat 8 (voqDev k), 0] ++ beBytes 4 p.dest ++
    [BitVec.ofNat 8 plane, BitVec.ofNat 8 s.now]
  h ++ beBytes 2 (crc16 h).toNat

/-- Release the next cell of a virtual output queue onto a link: it goes in a slot of the tick's frames. -/
def State.releaseVoq (s : State) (c : Sched) (k l : Nat) (p : Pkt) (rest : List Pkt) : State × Sched :=
  let i := (s.voqAt k).sent
  let bs := (s.loadPkt 0 p).fabBytes
  let data := (bs.drop (256 * i)).take 256
  let last := p.ended && decide (bs.length ≤ 256 * (i + 1))
  let (seq, s1) := s.takeSeq (65536 + k) 1
  let ps := s1.sprayList
  let j := SMap.find 0 s1.core.sprayJ (voqSlice k)
  let plane := ps.getD ((j + s1.now) % ps.length) 0
  let s2 := { s1 with core := { s1.core with sprayJ := SMap.set 0 s1.core.sprayJ (voqSlice k) (j + 1) } }
  let cr := s2.srcCredit (voqCredit k)
  let s3 := (s2.setSrcCredit (voqCredit k) { cr with avail := cr.avail - 1 }).setLane l { s2.lane l with
    slots := (s2.lane l).slots ++ [s.fabHeader k l i data.length last p seq plane ++ slice0 data 0 256] }
  let s4 := if last then (s3.setVoq k ⟨rest, 0⟩).freePkt (voqSlice k / 2) p else s3.setVoq k { s3.voqAt k with sent := i + 1 }
  let c1 : Sched :=
    { used := SMap.set 0 c.used l (SMap.find 0 c.used l + 1)
      sent := SMap.set 0 c.sent (voqDev k) (SMap.find 0 c.sent (voqDev k) + 1) }
  (s4, c1)

/-- The next cell of a virtual output queue goes out, if it may: the state after it, or none. -/
def State.tryVoq (s : State) (c : Sched) (k : Nat) : Option (State × Sched) :=
  match (s.voqAt k).pkts with
  | [] => none
  | p :: rest =>
    if s.core.spray = 0 ∨ s.voqCredited k = false ∨ p.fabReady (s.voqAt k).sent = false then none
    else (s.pickLink c (voqDev k)).map (fun l => s.releaseVoq c k l p rest)

/-- The virtual output queues of a class, those after the last one served first (round robin, R242). -/
def State.voqTurn (s : State) (tc : Nat) : List Nat :=
  let ks := (s.tm.voq.map (fun x => (voqCredit x.1 * 8 + voqSlice x.1, x.1))).filter (fun x => decide (voqTc x.2 = tc))
  let ord := (ks.mergeSort (fun a b => decide (a.1 ≤ b.1)))
  let last := SMap.find 0 s.fabric.rr tc
  ((ord.filter (fun x => decide (last < x.1))) ++ (ord.filter (fun x => decide (x.1 ≤ last)))).map (fun x => x.2)

/-- Serve a class cell by cell; n bounds the cells. -/
def State.serveClass (s : State) (c : Sched) (tc : Nat) : Nat → State × Sched
  | 0 => (s, c)
  | n + 1 =>
    let s1 := (s.voqTurn tc).foldl (fun x k => x.voqPurge k (x.voqAt k).pkts.length) s
    match (s1.voqTurn tc).findSome? (fun k => (s1.tryVoq c k).map (fun r => (k, r))) with
    | none => (s1, c)
    | some (k, s2, c2) =>
      ({ s2 with fabric := { s2.fabric with rr := SMap.set 0 s2.fabric.rr tc (voqCredit k * 8 + voqSlice k) } }).serveClass c2 tc n

/-- The classes in the order in which they are served: express classes first, each from 7 down to 0. -/
def State.classOrder (s : State) : List Nat :=
  let l := (List.range 8).reverse
  l.filter (fun c => s.express c) ++ l.filter (fun c => !s.express c)

/-- At a boundary in RUNNING or DISABLING the cells of the tick are released (R292, R293). A resync's empty tick carries none
(R301). -/
def State.fabSchedule (s : State) : State :=
  if s.flowing = false then s
  else
    let n := (s.fabric.lanes.map (fun x => if x.2.inSpray then s.laneRoom x.1 else 0)).sum
    (s.classOrder.foldl (fun (x : State × Sched) tc => x.1.serveClass x.2 tc n) (s, ⟨[], []⟩)).1

/-! ### Registers (R291) -/

/-- Some fabric lane of the device has EN = 1. -/
def State.anyLaneEn (s : State) : Bool :=
  (List.range 512).any (fun l => s.laneNamed l && bit (s.reg (Reg.fabLaneCfg (laneQuad l) (laneIn l))) 31)

/-- A write of FAB_LANE_CFG: none where it changes RATE with EN = 1 (CONFIG_LOCKED). -/
def State.laneCfgTo (s : State) (l : Nat) (v : Word32) : Option State :=
  let ca := Reg.fabLaneCfg (laneQuad l) (laneIn l)
  let v1 := v &&& 0x8C000000
  if s.laneNamed l = false then some s
  else if bit (s.reg ca) 31 = true ∧ bits (s.reg ca) 27 26 ≠ bits v1 27 26 then none
  else some (s.setReg ca v1)

/-- A write of FAB_LANE_CTL. -/
def State.laneCtlWrite (s : State) (l : Nat) (v : Word32) : State :=
  if s.laneNamed l = false then s
  else
    let s1 := if bit v 0 then s.bitslipWrite l else s
    let s2 := if bit v 1 then s1.alignDoneWrite l else s1
    if bit v 2 then s2.setEv (laneCtl l) 2 else s2

end Sys2Proof.Machine
end

