-- ==== Sys2Proof/Machine/Clock.lean ====
section
/-! DEFINITION. Time: the two domains, their servos, the output timescale, event pins and the transmit timestamp queue
(chapter 12). -/

namespace Sys2Proof.Machine

/-! ### Domains (R321, R323) -/

/-- INC_BASE of a domain as in force: 40 bits in units of 2^-32 ns. -/
def State.incBase (s : State) (d : Nat) : Nat :=
  s.cfgF (Reg.timeDIncNs d) 7 0 * 2 ^ 32 + (s.cfg (Reg.timeDIncFrac d)).toNat

/-- The value, adjustment, integral and armed offset of a domain. -/
def State.dom (s : State) (d : Nat) : BitVec 64 := if d = 0 then s.time.d0 else s.time.d1
def State.domA (s : State) (d : Nat) : Int := if d = 0 then s.time.a0 else s.time.a1
def State.domI (s : State) (d : Nat) : Int := if d = 0 then s.time.i0 else s.time.i1
def State.domOfs (s : State) (d : Nat) : Option (BitVec 64) := if d = 0 then s.time.ofs0 else s.time.ofs1

/-- Set value, adjustment and integral of a domain; no offset is armed any more. -/
def State.setDom (s : State) (d : Nat) (v : BitVec 64) (a i : Int) : State :=
  if d = 0 then { s with time := { s.time with d0 := v, a0 := a, i0 := i, ofs0 := none } }
  else { s with time := { s.time with d1 := v, a1 := a, i1 := i, ofs1 := none } }

/-- The output timescale at a boundary: the active domain and the residue of a slew (R322, R324). -/
def State.oNow (s : State) : BitVec 64 := s.dom s.time.active + BitVec.ofInt 64 s.time.r

/-- A domain advances by n REFCLK edges. -/
def State.domStep (s : State) (d n : Nat) : State :=
  let v := s.dom d + BitVec.ofInt 64 ((n : Int) * ((s.incBase d : Int) - s.domA d))
  if d = 0 then { s with time := { s.time with d0 := v } } else { s with time := { s.time with d1 := v } }

/-- SLEW_PPM in units of 2^-32 ns per REFCLK cycle (R324). -/
def State.slewRate (s : State) : Nat := s.cfgF Reg.timeCtl 3 0 * 27488

/-- A magnitude falls toward 0 by n, and stops at 0. -/
def shrink (r : Int) (n : Nat) : Int := if 0 ≤ r then max 0 (r - n) else min 0 (r + n)

/-- REFCLK edges of this tick, the next boundary being displaced by some. -/
def State.tickEdges (s : State) : Int := 25 + s.alm.displaced

/-- A slew has ended: SLEWING reads 0 and SWITCH_DONE is set (R324). -/
def State.slewEnd (s : State) : State := { s with time := { s.time with slew := false } }.setEv Reg.timeEvents 2

/-- Both domains and a slew advance by n REFCLK edges; R stops at 0, which ends the slew (R321, R324). -/
def State.timeStep (s : State) (n : Nat) : State :=
  let s1 := (s.domStep 0 n).domStep 1 n
  if s.time.slew = false then { s1 with time := { s1.time with r := 0 } }
  else
    let r := shrink s.time.r (n * s.slewRate)
    let s2 : State := { s1 with time := { s1.time with r := r } }
    if r = 0 then s2.slewEnd else s2

/-- The ticks of which a receive stamp can still need O: more than the longest frame lasts. -/
def pastTicks : Nat := 64

/-- A tick of n REFCLK edges has passed: the domains move, and what O was in it is kept. -/
def State.timePass (s : State) (n : Nat) : State :=
  let s1 := s.timeStep n
  { s1 with time := { s1.time with
    past := (⟨s1.oNow, s1.oNow - s.oNow, s.time.j, s.time.active⟩ :: s1.time.past).take pastTicks } }

/-- Clamp to ±m. -/
def clampTo (m v : Int) : Int := max (-m) (min m v)

/-- A shifted term of the servo; a shift of 63 makes it 0. -/
def servoTerm (e : Int) (sh : Nat) : Int := if sh = 63 then 0 else e / 2 ^ sh

/-- At a boundary an armed offset acts: step or servo (R323). After a step A is I alone, since P is 0 (DEDUCED, log 47). -/
def State.servo (s : State) (d : Nat) : State :=
  let w := Reg.timeDServo d
  if s.cfgB w 31 = false then s.setDom d (s.dom d) 0 0
  else
    match s.domOfs d with
    | none => s
    | some ofs =>
      let e := ofs.toInt
      let lim : Int := (s.cfg (Reg.timeDAdjMax d)).toNat
      let th := s.cfgF w 15 0
      if th ≠ 0 ∧ th * 1000 * 2 ^ 32 ≤ e.natAbs then
        let s1 := s.setDom d (s.dom d - ofs) (clampTo lim (s.domI d)) (s.domI d)
        let s2 := if s.time.active = d then { s1 with time := { s1.time with j := s1.time.j - ofs } } else s1
        s2.setEv Reg.timeEvents d
      else
        let i := clampTo lim (s.domI d + servoTerm e (s.cfgF w 21 16))
        s.setDom d (s.dom d) (clampTo lim (servoTerm e (s.cfgF w 29 24) + i)) i

/-- A write of the upper word of an RW value: what was held of the lower word goes with it (R15). -/
def State.upperWrite (s : State) (ca : Nat) (v mask : Word32) : State := (s.setReg ca (v &&& mask)).freeWide ca

/-- The write of TIME_D_OFS_NS arms an offset (R15, R323). -/
def State.ofsWrite (s : State) (d : Nat) (v : Word32) : State :=
  let e : BitVec 64 := v ++ s.reg (Reg.timeDOfsFrac d)
  let s1 := s.upperWrite (Reg.timeDOfsNs d) v 0xFFFFFFFF
  if d = 0 then { s1 with time := { s1.time with ofs0 := some e } } else { s1 with time := { s1.time with ofs1 := some e } }

/-- TIME_OFS_WRITE (R323). -/
def execTimeOfsWrite (d : Fin 2) (v : Word32) (s : State) : Res := .next (s.ofsWrite d.val v)

/-- TIME_INC_WRITE (R321, R323): the write of TIME_D_INC_NS; INC_BASE changes at the next boundary. -/
def execTimeIncWrite (d : Fin 2) (v : Word32) (s : State) : Res := .next (s.upperWrite (Reg.timeDIncNs d.val) v 0xFF)

/-! ### Switches (R324, R325) -/

/-- At a boundary the active domain becomes the other one: JUMP, or SLEW with R := O − D_new, which is done at once where R
is 0. On A0, J takes a jump one boundary late (KL-13). -/
def State.switchDom (s : State) (slew : Bool) : State :=
  let n := 1 - s.time.active
  let gap := s.oNow - s.dom n
  let s1 := s.clrBit Reg.timeCtl 31
  if slew then
    let s2 : State := { s1 with time := { s1.time with active := n, r := gap.toInt, slew := true } }
    if gap = 0 then s2.slewEnd else s2
  else
    { s1 with time := { s1.time with
        active := n
        r := 0
        slew := false
        j := if Config.isA0 then s1.time.j else s1.time.j - gap
        jLate := if Config.isA0 then 0 - gap else 0 } }.setEv Reg.timeEvents 2

/-- A write of TIME_CTL: SWITCH is ignored while a slew is in progress. -/
def State.timeCtlWrite (s : State) (v : Word32) : State :=
  s.setReg Reg.timeCtl (if s.time.slew then setBits (v &&& 0xC000000F) 31 31 0 else v &&& 0xC000000F)

/-- The write of SWITCH = 1 with a MODE; the switch itself is made at the next boundary (R40, R324). -/
def State.switchAsk (s : State) (slew : Bool) : State :=
  s.timeCtlWrite (setBits (s.reg Reg.timeCtl) 31 30 (2 + b2n slew))

/-- SWITCH_JUMP (R324, R325): SWITCH is written with MODE 0. -/
def execSwitchJump (s : State) : Res := .next (s.switchAsk false)

/-- SWITCH_SLEW (R324): SWITCH is written with MODE 1. -/
def execSwitchSlew (s : State) : Res := .next (s.switchAsk true)

/-- SLEW_DONE (R324): R reaches 0 in this tick; TICK_BOUNDARY finds it where this command has not told it. -/
def execSlewDone (s : State) : Res :=
  if s.time.slew && decide (s.time.r.natAbs ≤ s.tickEdges.toNat * s.slewRate) then .next s.slewEnd else .next s

/-! ### Event pins (R333, R334) -/

/-- Word w of a pin as in force. -/
def State.pinW (s : State) (k w : Nat) : Word32 := s.cfg (Reg.evtPin k w)

/-- The pin is an output; EVT0 to EVT3 only. -/
def State.pinOut (s : State) (k : Nat) : Bool := decide (k < 4) && bit (s.pinW k 0) 28

/-- EDGE of a pin selects an edge. -/
def edgeSel (e : Nat) (rising : Bool) : Bool := if e = 1 then !rising else if e = 2 then true else rising

/-- EVT_EDGE (R333). -/
def execEvtEdge (pin : Fin 16) (rising : Bool) (dt : Word64) (s : State) : Res :=
  let k := pin.val
  if bit (s.pinW k 0) 31 = false ∨ s.pinOut k = true ∨ edgeSel (bits (s.pinW k 0) 30 29) rising = false then .next s
  else
    let o := s.oAt dt
    let sub := o.toNat / 2 ^ 24 % 256
    let w2 := s.reg (Reg.evtPin k 2)
    let lost := bit w2 31
    let s1 := (s.setReg (Reg.evtPin k 1) (nsOf o)).setReg (Reg.evtPin k 2)
      (setBits (setBits (setBits (setBits w2 31 31 1) 30 30 (b2n (lost || bit w2 30))) 29 29 (b2n rising)) 7 0 sub)
    let s2 := if lost then s1.setEv Reg.timeEvents 3 else s1
    if bit (s.pinW k 0) 26 then
      .next (s2.noticeAt 0x0041 (nsOf o)
        ([BitVec.ofNat 8 k, BitVec.ofNat 8 (b2n rising), BitVec.ofNat 8 sub, 0] ++ beBytes 4 (nsOf o).toNat))
    else .next s2

/-- WIDTH and PERIOD of an output pin keep the limits of R334. -/
def State.pinLimits (s : State) (k : Nat) : Bool :=
  let w := bits (s.reg (Reg.evtPin k 4)) 23 0
  let p := bits (s.reg (Reg.evtPin k 5)) 30 0
  decide (8 ≤ w) && (decide (p = 0) || decide (w < p))

/-- A write of word 0 of a pin: none where ARM is refused with BAD_VALUE. OUT_EN is zero on EVT4 to EVT15. -/
def State.pinTo (s : State) (k : Nat) (v : Word32) : Option State :=
  let v1 := if k < 4 then v &&& 0xFC000000 else v &&& 0xEC000000
  if k < 4 ∧ bit v 27 = true then
    if s.pinLimits k then some { s.setReg (Reg.evtPin k 0) v1 with time := { s.time with arm := s.time.arm ++ [k] } } else none
  else some (s.setReg (Reg.evtPin k 0) v1)

/-- EVT_ARM (R334): the write of word 0 of an output pin; a refused write changes nothing. -/
def execEvtArm (pin : Fin 4) (v : Word32) (s : State) : Res := .next ((s.pinTo pin.val v).getD s)

/-- Time from one REFCLK edge to the next, in 2^-32 ns: 6.4 ns. -/
def edgeSpan : Nat := 64 * 2 ^ 32 / 10

/-- An output pin falls (R334); a single pulse is then over, and its ARM clears. -/
def State.pinFall (s : State) (k : Nat) : State :=
  let s1 := { s with time := { s.time with high := s.time.high.drop k } }.emit (.pin k false)
  if s.time.pulse.any (fun x => x.1 == k) || s.time.arm.contains k then s1 else s1.clrBit (Reg.evtPin k 0) 27

/-- A tick of n REFCLK edges has passed: the pins whose fall lay in it are low. -/
def State.pinsPass (s : State) (n : Nat) : State :=
  s.time.high.foldl (fun x e =>
    if e.2 ≤ n * edgeSpan then x.pinFall e.1
    else { x with time := { x.time with high := (x.time.high.drop e.1).insert e.1 (e.2 - n * edgeSpan) } }) s

/-- A pin with ARM = 0 is low from the boundary on. -/
def State.pinLow (s : State) (k : Nat) : State :=
  if bit (s.pinW k 0) 27 = false ∧ s.time.high.any (fun x => x.1 == k) = true then s.pinFall k else s

/-- At a boundary the pins whose ARM was written are scheduled at T := START, and a pin with ARM = 0 is held low. -/
def State.pinsTick (s : State) : State :=
  let go := (List.range 4).foldl (fun (m : SMap Word32) k =>
    if bit (s.pinW k 0) 27 = false then m.drop k
    else if s.time.arm.contains k then (m.drop k).insert k (s.pinW k 3)
    else m) s.time.pulse
  let s1 : State := { s with time := { s.time with pulse := go, arm := [] } }
  (List.range 4).foldl State.pinLow s1

/-- How many periods bring T ahead of O, where O has reached T by d. -/
def pulseNext (t : Word32) (d p : Nat) : Word32 := t + BitVec.ofNat 32 (p * (d / p + 1))

/-- A pin rises dt after the last boundary, and is to fall WIDTH ns later; one that is still to fall from an earlier pulse of
this tick falls first. -/
def State.pinRise (s : State) (k : Nat) (dt : Word64) : State :=
  let s1 := if s.time.high.any (fun x => x.1 == k && decide (x.2 ≤ dt.toNat)) then s.emit (.pin k false) else s
  { s1 with time := { s1.time with
    high := (s1.time.high.drop k).insert k (dt.toNat + bits (s.pinW k 4) 23 0 * 2 ^ 32) } }.emit (.pin k true)

/-- EVT_PULSE (R334): O, dt after the last boundary, has reached T of an output pin, and the pin rises. -/
def execEvtPulse (pin : Fin 4) (dt : Word64) (s : State) : Res :=
  let k := pin.val
  match s.time.pulse.find? (fun x => x.1 == k) with
  | none => .next s
  | some (_, t) =>
    let d := (nsOf (s.oAt dt) - t).toNat
    if s.pinOut k = false ∨ 2 ^ 31 ≤ d then .next s
    else
      let p := bits (s.pinW k 5) 30 0
      let s1 := s.pinRise k dt
      if p = 0 then .next { s1 with time := { s1.time with pulse := s1.time.pulse.drop k } }
      else .next { s1 with time := { s1.time with pulse := (s1.time.pulse.drop k).insert k (pulseNext t d p) } }

/-! ### The transmit timestamp queue (R332) -/

/-- TSQ_RELEASE (R332): the min(N, COUNT) oldest entries are removed at once. -/
def execTsqRelease (n : Word32) (s : State) : Res :=
  .next { s with time := { s.time with tsq := s.time.tsq.drop (bits n 6 0) } }

/-! ### Boundaries -/

/-- J takes the jump that it missed at the boundary before (KL-13). -/
def State.lateJump (s : State) : State := { s with time := { s.time with j := s.time.j + s.time.jLate, jLate := 0 } }

/-- At a boundary, with the written settings in force: pins, offsets, a domain switch, TIME_DIFF. -/
def State.timeTick (s : State) : State :=
  let s1 := ((s.lateJump.pinsTick).servo 0).servo 1
  let s2 := if s1.cfgB Reg.timeCtl 31 && !s1.time.slew then s1.switchDom (s1.cfgB Reg.timeCtl 30) else s1
  { s2 with time := { s2.time with diff := s2.dom 1 - s2.dom 0 } }

end Sys2Proof.Machine
end

