-- ==== Sys2Proof/Machine/Power.lean ====
section
/-! DEFINITION. Operating points, limiters, heat, the throttle log, energy per job and clock gating (chapter 15). -/

namespace Sys2Proof.Machine

/-! ### Operating points (R373, R374, R376) -/

/-- The clock ratio of an operating point (Table 15.2). -/
def opK (op : Nat) : Nat := [8, 10, 12, 13, 14, 15, 16, 18].getD op 18

/-- MIN_OP and MAX_OP of a POW_CTL word; OP6 with FIXED = 1 (R376). -/
def minOpOf (w : Word32) : Nat := if bit w 31 then 6 else bits w 6 4
def maxOpOf (w : Word32) : Nat := if bit w 31 then 6 else bits w 10 8

/-- FIXED and MIN_OP as in force. -/
def State.powFixed (s : State) : Bool := s.cfgB Reg.powCtl 31
def State.minOp (s : State) : Nat := minOpOf (s.cfg Reg.powCtl)

/-- The current limiter of a rail. -/
def State.rail (s : State) (i : Nat) : RailLim := SMap.find RailLim.reset s.power.rails i

/-- Replace it. -/
def State.setRail (s : State) (i : Nat) (x : RailLim) : State :=
  { s with power := { s.power with rails := SMap.set RailLim.reset s.power.rails i x } }

/-- The rail whose supply a slot word names, where the slot is enabled (Table 15.4). -/
def slotRail (w : Word32) : Option Nat := if bit w 31 then some (bits w 2 0) else none

/-- The enabled slots of a rail. -/
def State.railSlots (s : State) (i : Nat) : List Nat :=
  (List.range 8).filter (fun r => slotRail (s.reg (Reg.powReg r 0)) == some i)

/-- Sensor j has failed (R387). -/
def State.sensorFailed (s : State) (j : Nat) : Bool := bit (s.reg (Reg.powTemp j)) 31

/-- The sensors of a die: quadrant dies 0 to 3, hub die 4. -/
def dieSensors (d : Nat) : List Nat := if d < 4 then (List.range 4).map (fun i => 4 * d + i) else (List.range 6).map (fun i => 16 + i)

/-- The die of a sensor. -/
def sensorDie (j : Nat) : Nat := if j < 16 then j / 4 else 4

/-- Every sensor of a die has failed (Table 17.3). -/
def State.dieBlind (s : State) (d : Nat) : Bool := (dieSensors d).all s.sensorFailed

/-- Some die can no longer be watched. -/
def State.blind (s : State) : Bool := (List.range 5).any s.dieBlind

/-- The least ceiling of the limiters. -/
def State.opCeiling (s : State) : Nat :=
  let t := if s.blind then min s.minOp s.power.thermCeil else s.power.thermCeil
  (List.range 7).foldl (fun m i => min m (s.rail i).ceil) (min s.power.capCeil t)

/-- The sequencer's target (R374, R376). -/
def State.opTarget (s : State) : Nat :=
  if s.powFixed then 6
  else max s.minOp (min (maxOpOf (s.cfg Reg.powCtl)) (min (s.cfgF Reg.powCtl 2 0) s.opCeiling))

/-- A ceiling one operating point below what is in force, not below MIN_OP (DEDUCED, log 49). -/
def State.lowered (s : State) (ceil : Nat) : Nat := max s.minOp (min ceil s.power.op - 1)

/-! ### The sequencer (R374, R375, R379, R399) -/

/-- The voltage of an operating point is sent to every slot of VDD_CORE. -/
def State.commandV (s : State) (op : Nat) : State :=
  (s.railSlots 0).foldl (fun x r => x.emit (.avs r (Config.opVoltage op).toNat)) s

/-- Set the transition in progress. -/
def State.setTrans (s : State) (t : Option Transition) : State := { s with power := { s.power with trans := t } }

/-- An operating point is reached: the transition is complete. Where it is the one that the cap limiter's ceiling asked for, the
limiter restores its grant target (R383). -/
def State.reached (s : State) (op : Nat) : State :=
  let cap := s.power.capLowering && decide (op ≤ s.power.capCeil)
  { s with power := { s.power with
      op := op
      trans := none
      capGrant := if cap then 8 else s.power.capGrant
      capLowering := s.power.capLowering && !cap } }

/-- The first VDD_CORE slot is enabled: the voltage of OP0 is commanded as a lower (R375, R399). -/
def State.firstCore (s : State) : State :=
  let s1 := s.commandV 0
  { s1 with power := { s1.power with coreSlotSeen := true, trans := some ⟨0, false, true, 0⟩ } }

/-- The sequencer has yet to see a VDD_CORE slot, and one is enabled. -/
def State.firstCoreDue (s : State) : Bool :=
  s.coreOn && !s.power.coreSlotSeen && !(s.railSlots 0).isEmpty && s.boot.stop.isNone

/-- FIRST_CORE_SLOT (R399). -/
def execFirstCoreSlot (s : State) : Res := if s.firstCoreDue then .next s.firstCore else .next s

/-- A transition that waits for nothing and has reached its K: a raise is complete, a lower sends its voltage. -/
def State.settle (s : State) : State :=
  match s.power.trans with
  | none => s
  | some t =>
    if t.waiting = true ∨ s.power.k ≠ opK t.target then s
    else if t.raising then s.reached t.target
    else if (s.railSlots 0).isEmpty then s.reached t.target
    else (s.commandV t.target).setTrans (some { t with waiting := true, age := 0 })

/-- With no transition in progress, the target is taken up. -/
def State.takeTarget (s : State) : State :=
  if s.power.trans.isSome then s
  else if s.power.coreSlotSeen = false then (if s.firstCoreDue then s.firstCore else s)
  else
    let t := s.opTarget
    if t = s.power.op then s
    else if s.power.op < t then
      if s.power.raiseBlocked then s
      else (s.commandV t).setTrans (some ⟨t, true, !(s.railSlots 0).isEmpty, 0⟩)
    else s.setTrans (some ⟨t, false, false, 0⟩)

/-- The K that the sequencer moves toward now, if a step is due: 8 in a stop from its second boundary on (R372). -/
def State.stepGoal (s : State) : Option Nat :=
  let k := s.power.k
  if s.boot.stop.isSome then (if 2 ≤ s.boot.stopAge ∧ 8 < k then some 8 else none)
  else match s.power.trans with
    | none => none
    | some t => if t.waiting = true ∨ k = opK t.target then none else some (opK t.target)

/-- K of the next tick is fixed: one divider step, or none; a step due is held until four ticks without a stretch have
passed (R43, R374, R379). -/
def State.fixStep (s : State) : State :=
  let k := s.power.k
  match s.stepGoal with
  | none => { s with power := { s.power with nextK := k, stepHeld := false } }
  | some g =>
    if s.power.freeTicks < 4 then { s with power := { s.power with nextK := k, stepHeld := true } }
    else { s with power := { s.power with nextK := if k < g then k + 1 else k - 1, stepHeld := false } }

/-- The sequencer in the housekeeping cycles of a tick. -/
def State.dvfsTick (s : State) : State :=
  if s.coreOn = false then s
  else
    let p := s.power
    let s1 : State := { s with power := { p with
      k := p.nextK
      freeTicks := if p.stretch = 0 then min 4 (p.freeTicks + 1) else 0
      stretch := 0
      droopLeft := p.droopLeft - 1
      trans := p.trans.map (fun t => { t with age := t.age + 1 }) } }
    if s.boot.stop.isSome then s1.fixStep else (s1.settle.takeTarget).fixStep

/-- REG_READBACK (R374, R399): every slot of VDD_CORE reads back within 10 mV of the commanded voltage. -/
def execRegReadback (s : State) : Res :=
  match s.power.trans with
  | none => .next s
  | some t =>
    if t.waiting = false then .next s
    else if t.raising then .next (s.setTrans (some { t with waiting := false }))
    else .next (s.reached t.target)

/-- REG_TIMEOUT (R375): 625 ticks have passed without the read-back of some slots. -/
def execRegTimeout (slots : BitVec 8) (s : State) : Res :=
  match s.power.trans with
  | none => .next s
  | some t =>
    let late := (s.railSlots 0).filter (fun r => bit slots r)
    if t.waiting = false ∨ t.age < 625 ∨ late = [] then .next s
    else
      let s1 := late.foldl (fun (x : State) r => (x.setEv (Reg.powReg r 3) 31).vigil' 0x0031 r) (s.setEv Reg.powEvents 4)
      if t.raising then
        let s2 := s1.setTrans none
        .next { s2 with power := { s2.power with raiseBlocked := true } }
      else .next (s1.reached t.target)

/-- DROOP_STRETCH (R44, R378): while the detectors are active, a droop lengthens core cycles. -/
def execDroopStretch (cycles : Nat) (s : State) : Res :=
  if s.coreOn && s.droopIn 0 then .next { s with power := { s.power with stretch := s.power.stretch + cycles } } else .next s

/-! ### Writes of POW_CTL (R376, R377) -/

/-- U at MIN_OP of a POW_CTL word, with or without the droop margin (R49). -/
def State.uAtMin (s : State) (w : Word32) (armed : Bool) : Nat :=
  cyclesOf (opK (minOpOf w)) - 16 - (if armed then bits (s.reg Reg.almLimit) 31 24 else 0)

/-- The present entries of a cluster's image. -/
def State.clusterEntries (s : State) (k : Nat) : List Entry :=
  match (s.cluster k).prog with
  | none => []
  | some p => p.entries.filter (fun e => decide (e.kind ≠ 0))

/-- The lowest entry index of a cluster whose declared WCET exceeds U. -/
def State.overU (s : State) (u k : Nat) : Option Nat :=
  (((s.clusterEntries k).filter (fun e => decide (u < e.wcet))).map (fun e => e.index)).min?

/-- The clusters that are not FAILED (R89). -/
def State.sound (s : State) : List Nat := (List.range 32).filter (fun k => (s.cluster k).state != .failed)

/-- A write of POW_CTL: the state after it and a DCP status, 0 if it is accepted. -/
def State.powCtlTo (s : State) (v : Word32) : State × Nat :=
  let old := s.reg Reg.powCtl
  let v1 := v &&& 0xC0000777
  if s.running = true ∧ (bit v1 31 ≠ bit old 31 ∨ bits v1 6 4 ≠ bits old 6 4) then (s, 0x10)
  else if s.running = true ∧ bit v1 30 = true ∧ bit old 30 = false ∧
      s.sound.any (fun k => (s.overU (s.uAtMin v1 true) k).isSome) = true then (s, 0x11)
  else
    let s1 := s.setReg Reg.powCtl v1
    ({ s1 with power := { s1.power with raiseBlocked := false } }, 0)

/-- POW_CTL_WRITE (R374, R376, R377): a refused write changes nothing. -/
def execPowCtlWrite (v : Word32) (s : State) : Res := .next (s.powCtlTo v).1

/-! ### Regulators and rails (R381, R382) -/

/-- One slot is read: voltage in mV and current in 0.25 A, or no answer. -/
def State.pollSlot (s : State) (r : Nat) (v a : Option (BitVec 16)) : State :=
  if (slotRail (s.cfg (Reg.powReg r 0))).isNone then s
  else
    match v, a with
    | some mv, some qa =>
      let s1 := (s.setReg (Reg.powReg r 1) (mv.zeroExtend 32)).setReg (Reg.powReg r 2) (qa.zeroExtend 32)
      { s1 with power := { s1.power with missed := SMap.set 0 s1.power.missed r 0 } }
    | _, _ =>
      let n := SMap.find 0 s.power.missed r + 1
      let s1 := if 3 ≤ n then s.setEv (Reg.powReg r 3) 30 else s
      { s1 with power := { s1.power with missed := SMap.set 0 s1.power.missed r n } }

/-- The current of a rail in 0.25 A, as last read. -/
def State.railCurrent (s : State) (i : Nat) : Nat :=
  ((s.railSlots i).map (fun r => bits (s.reg (Reg.powReg r 2)) 15 0)).sum

/-- The power of the enabled slots of some rails in 0.25 mW. -/
def State.railPower (s : State) (ok : Nat → Bool) : Nat :=
  ((List.range 8).map (fun r =>
    if (slotRail (s.reg (Reg.powReg r 0))).any ok then
      bits (s.reg (Reg.powReg r 1)) 15 0 * bits (s.reg (Reg.powReg r 2)) 15 0
    else 0)).sum

/-- The power of all enabled slots in 0.25 mW. -/
def State.slotPower (s : State) : Nat := s.railPower (fun _ => true)

/-- REGULATOR_POLL (R381): every enabled slot is read; 500 polls give POWER_W. A rail without a slot is not limited. -/
def execRegulatorPoll (volts amps : List (Option (BitVec 16))) (s : State) : Res :=
  if s.coreOn = false then .next s
  else
    let s1 := (List.range 8).foldl (fun x r => x.pollSlot r (volts.getD r none) (amps.getD r none)) s
    let s2 := (List.range 7).foldl (fun x i =>
      if (x.railSlots i).isEmpty then x.setRail i RailLim.reset
      else x.setRail i { x.rail i with sum := (x.rail i).sum + x.railCurrent i, polls := (x.rail i).polls + 1 }) s1
    let sum := s2.power.powerSum + s2.slotPower
    let p : Power := { s2.power with jobSum := s2.power.jobSum + s2.railPower (fun i => decide (i ≤ 1)) }
    if 500 ≤ p.powerPolls + 1 then
      .next { s2 with power := { p with powerSum := 0, powerPolls := 0, powerW := sum / 2000000 } }
    else .next { s2 with power := { p with powerSum := sum, powerPolls := p.powerPolls + 1 } }

/-- What a current limiter asks after a window above LIMIT (R382). -/
def State.railOver (s : State) (x : RailLim) : RailLim :=
  if 4 < x.grant then { x with grant := x.grant - 1, below := 0 }
  else if s.powFixed then { x with below := 0 }
  else { x with ceil := s.lowered x.ceil, below := 0 }

/-- What it asks after a window below 15/16 of LIMIT. -/
def RailLim.under (x : RailLim) : RailLim :=
  let n := x.below + 1
  if n < 16 then { x with below := n }
  else if x.grant < 8 then { x with grant := x.grant + 1, below := 16 }
  else if 7 ≤ x.ceil then { x with below := 16 }
  else if n < 32 then { x with below := n }
  else { x with ceil := x.ceil + 1, below := 16 }

/-- RAIL_WINDOW_END (R382): the mean of the window's four polls is compared with LIMIT. -/
def execRailWindowEnd (rail : Fin 7) (s : State) : Res :=
  let i := rail.val
  let x := s.rail i
  let lim := s.cfgF (Reg.powRail i) 15 0
  if x.polls < 4 then .next s
  else if lim = 0 then .next (s.setRail i RailLim.reset)
  else
    let y := { x with sum := 0, polls := 0, wins := x.wins + 1 }
    if lim * x.polls < x.sum then
      .next ((s.setRail i { s.railOver y with above := x.above + 1 }).setEv Reg.powEvents 0)
    else if 16 * x.sum < 15 * lim * x.polls then .next (s.setRail i y.under)
    else .next (s.setRail i { y with below := 0 })

/-- At a boundary the duty of the rails is judged once per 2^20 ticks (Table 17.2). -/
def State.dutyTick (s : State) : State :=
  let n := s.power.dutyTicks + 1
  if n < 2 ^ 20 then { s with power := { s.power with dutyTicks := n } }
  else
    let pct := min 100 (s.cfgF Reg.vigLimit 15 8)
    (List.range 7).foldl (fun (x : State) i =>
      let r := x.rail i
      let y := x.setRail i { r with wins := 0, above := 0 }
      if pct ≠ 0 ∧ pct * r.wins < 100 * r.above then y.vigil' 0x0030 i else y)
      { s with power := { s.power with dutyTicks := 0 } }

/-! ### The cap (R383, R384) -/

/-- CAP_CHECK (R383, R384): POWER_W against CAP_W, once per ms. -/
def execCapCheck (s : State) : Res :=
  let p := s.power
  let cap := s.cfgF Reg.powCap 15 0
  if s.coreOn = false then .next s
  else if cap = 0 then
    .next { s with power := { p with capCeil := 7, capGrant := 8, capLowering := false, capFloor := false } }
  else if cap < p.powerW then
    if s.powFixed = false ∧ s.minOp < p.op then
      .next { s with power := { p with
        capCeil := s.lowered p.capCeil, capGrant := max 1 (p.capGrant - 1), capLowering := true, capFloor := false } }
    else
      let s1 : State := { s with power := { p with capGrant := max 1 (p.capGrant - 1), capFloor := true } }
      if p.capFloor then .next s1 else .next ((s1.setEv Reg.powEvents 1).notice 0x0050 [])
  else if p.powerW + s.cfgF Reg.powCap 31 16 < cap then
    if p.capGrant < 8 then .next { s with power := { p with capGrant := 8, capFloor := false } }
    else .next { s with power := { p with capCeil := min 7 (p.capCeil + 1), capFloor := false } }
  else .next s

/-! ### Heat (R387 to R389) -/

/-- A temperature word as signed 1/16 °C. -/
def tempOf (w : Word32) : Int := (w.extractLsb' 0 16).toInt

/-- The highest temperature of a valid sensor. -/
def State.hottest (s : State) : Option Int :=
  (((List.range 22).filter (fun j => !s.sensorFailed j)).map (fun j => tempOf (s.reg (Reg.powTemp j)))).max?

/-- A reading is not THERM_HYST below THERM_LIMIT. -/
def State.warm (s : State) (t : Int) : Bool :=
  decide (16 * (s.cfgF Reg.powTherm 7 0 : Int) < t + 16 * (s.cfgF Reg.powTherm 15 8 : Int))

/-- A sensor fails: it takes no further part, and Vigil records it (R387, Tables 17.2, 17.3). -/
def State.failSensor (s : State) (j : Nat) : State :=
  let s1 := (s.setReg (Reg.powTemp j) (setBits (s.reg (Reg.powTemp j)) 31 31 1)).setEv Reg.powEvents 3
  let s2 : State := { s1 with power := { s1.power with hot := setBits s1.power.hot j j 0 } }
  (s2.vigilRaise 0x0032 j (2 ^ 6) (s2.dieBlind (sensorDie j)) (nsOf (s2.oAt s2.eventDt))).nextFree

/-- One sensor is sampled. A reading outside −40 °C to 150 °C, or none, fails the sensor until reset (R387). -/
def State.sampleSensor (s : State) (j : Nat) (t : Option (BitVec 16)) : State :=
  if s.sensorFailed j then s
  else
    match t with
    | some v =>
      if -640 ≤ v.toInt ∧ v.toInt ≤ 2400 then
        let hot := decide (1840 ≤ v.toInt)
        let s1 := s.setReg (Reg.powTemp j) (v.zeroExtend 32)
        { s1 with power := { s1.power with
            hot := setBits s1.power.hot j j (b2n hot)
            hotDue := s1.power.hotDue || (hot && bit s1.power.hot j)
            thermOver := s1.power.thermOver || s.warm v.toInt } }
      else s.failSensor j
    | none => s.failSensor j

/-- SENSOR_SAMPLE (R387). The sensors start in AON_UP. -/
def execSensorSample (temps : List (Option (BitVec 16))) (s : State) : Res :=
  if s.boot.phase = .coldWait then .next s
  else .next ((List.range 22).foldl (fun x j => x.sampleSensor j (temps.getD j none)) s)

/-- THERMAL_CHECK (R388): the hottest valid sensor against THERM_LIMIT, once per ms. -/
def execThermalCheck (s : State) : Res :=
  let p := s.power
  match s.hottest with
  | none => .next s
  | some t =>
    if s.coreOn = false then .next s
    else if 16 * (s.cfgF Reg.powTherm 7 0 : Int) ≤ t then
      let s1 := s.setEv Reg.powEvents 2
      if s.powFixed = false ∧ s.minOp < p.op then
        .next { s1 with power := { p with thermCeil := s.lowered p.thermCeil, thermOver := true } }
      else .next { s1 with power := { p with thermGrant := max 1 (p.thermGrant - 1), thermOver := true } }
    else if p.thermOver = true ∨ s.warm t = true then .next { s with power := { p with thermOver := s.warm t } }
    else if p.thermGrant < 8 then .next { s with power := { p with thermGrant := p.thermGrant + 1 } }
    else .next { s with power := { p with thermCeil := min 7 (p.thermCeil + 1) } }

/-- THERM_SHUTDOWN (R389): two samples of 115 °C or more. The core stops as after a loss of REFCLK; a core already
stopped stays stopped until reset. -/
def execThermShutdown (s : State) : Res :=
  if s.power.hotDue = false ∨ s.boot.phase.code < 3 ∨ s.boot.stop = some .thermal ∨ s.boot.haltedBy = some .thermal then
    .next s
  else
    let s1 := s.setEv Reg.clkEvents 6
    let s2 := (s1.vigilRaise 0x0033 0 0 true (nsOf (s1.oAt s1.eventDt))).nextFree
    if s2.boot.phase = .halted then .next { s2 with boot := { s2.boot with haltedBy := some .thermal } }
    else
      .next { s2 with boot := { s2.boot with
        stop := some .thermal
        stopAge := if s2.boot.stop.isSome then s2.boot.stopAge else 0 } }

/-! ### The grant (R52 to R54, R385, R386) -/

/-- The grant EXT allows. -/
def State.extGrant (s : State) : Nat :=
  if s.power.extLow && s.cfgB Reg.powExt 31 then min 8 (s.cfgF Reg.powExt 3 0) else 8

/-- What GRANT_MAX and each limiter ask of the grant target, with its cause code. -/
def State.grantAsks (s : State) : List (Nat × Nat) :=
  let p := s.power
  [(min 8 (s.cfgF Reg.almLimit 3 0), 1), (p.capGrant, if p.capFloor then 3 else 2),
   ((List.range 7).foldl (fun m i => min m (s.rail i).grant) 8, 4),
   (if s.blind then min 4 p.thermGrant else p.thermGrant, 5), (s.extGrant, 6)]

/-- The grant target: the least of them in RUNNING, and 0 otherwise (R52, R386). -/
def State.grantTarget (s : State) : Nat := if s.running then s.grantAsks.foldl (fun m a => min m a.1) 8 else 0

/-- The limit that sets the target (R386). -/
def State.grantLimit (s : State) : Nat :=
  let t := s.grantTarget
  if t = 8 then 0 else (s.grantAsks.filter (fun a => decide (a.1 = t))).foldl (fun m a => max m a.2) 0

/-- ALM_GRANT.CAUSE (R52). While G has not yet taken a changed target it is 7, with ACT_SLOPE 0 too (DESIGN CHOICE, log 81). -/
def State.grantCause (s : State) : Nat :=
  if s.running = false then 9
  else if s.alm.resyncTick then 8
  else if s.alm.grant ≠ s.grantTarget ∧ s.boot.stop.isNone then 7
  else s.grantLimit

/-- G moves toward a target at the slope; a slope of 0 is none (R52, R54). -/
def slopeTo (slope g t : Nat) : Nat :=
  if slope = 0 then t else if g < t then min t (g + slope) else max t (g - slope)

/-- ACT_SLOPE. -/
def State.actSlope (s : State) : Nat := s.cfgF Reg.almLimit 11 8

/-- The grant of the tick that begins and of the one after it. -/
def State.grantTick (s : State) : State :=
  if s.boot.stop.isSome = true ∨ s.flowing = false then { s with alm := { s.alm with grant := 0, next := 0 } }
  else
    let g := if s.alm.resyncTick then 0 else s.alm.next
    { s with alm := { s.alm with grant := g, next := slopeTo s.actSlope g s.grantTarget } }

/-- A cluster that has restarted takes G at the slope (R90). -/
def State.rampTick (s : State) (k : Nat) : State :=
  match (s.cluster k).ramp with
  | none => s
  | some g =>
    let n := slopeTo s.actSlope g s.alm.next
    s.setCluster k { s.cluster k with ramp := if s.alm.next ≤ n then none else some n }

/-! ### The throttle log (R390) -/

/-- Whether a reason of Table 15.5 holds in this tick. -/
def State.throttles (s : State) (i : Nat) : Bool :=
  let p := s.power
  match i with
  | 0 => decide (p.capCeil < 7) || (decide (p.capGrant < 8) && !p.capFloor)
  | 1 => decide (p.capGrant < 8) && p.capFloor
  | 2 => decide (p.thermCeil < 7) || decide (p.thermGrant < 8) || s.blind
  | 3 => decide (0 < p.stretch)
  | 4 => decide (s.extGrant < 8)
  | 5 => p.stepHeld
  | n => decide (n ≤ 12) && (decide ((s.rail (n - 6)).ceil < 7) || decide ((s.rail (n - 6)).grant < 8))

/-- One reason's duration and count grow by a tick. -/
def State.logReason (s : State) (i : Nat) : State :=
  if s.throttles i = false then { s with power := { s.power with logActive := setBits s.power.logActive i i 0 } }
  else
    let d := (s.reg (Reg.powLog i 0)).toNat + 2 ^ 32 * (s.reg (Reg.powLog i 1)).toNat + 1
    let s1 := (s.setReg (Reg.powLog i 0) (BitVec.ofNat 32 d)).setReg (Reg.powLog i 1) (BitVec.ofNat 32 (d / 2 ^ 32 % 65536))
    let s2 := if bit s.power.logActive i then s1 else s1.setReg (Reg.powLog i 2) (s1.reg (Reg.powLog i 2) + 1)
    { s2 with power := { s2.power with logActive := setBits s2.power.logActive i i 1 } }

/-- At a boundary the tick that ended is logged. -/
def State.logTick (s : State) : State := if s.coreOn then (List.range 13).foldl (fun x i => x.logReason i) s else s

/-! ### Energy per job (R391) -/

/-- Add millijoules to a 64-bit energy register pair. -/
def State.addEnergy (s : State) (ca mj : Nat) : State :=
  let v := (s.reg ca).toNat + 2 ^ 32 * (s.reg (ca + 4)).toNat + mj
  (s.setReg ca (BitVec.ofNat 32 v)).setReg (ca + 4) (BitVec.ofNat 32 (v / 2 ^ 32))

/-- The energy in mJ that the VDD_CORE and VDD_SRAM slots have measured since the last update: polls 2 µs apart, in 0.25 mW. -/
def State.jobEnergy (s : State) : Nat := s.power.jobSum / 2000000

/-- JOB_ENERGY_UPDATE (R391): a ms ends, at an instant of the tick on which nothing rests; each cluster takes the whole millijoules of its
share (DEDUCED, log 52). -/
def execJobEnergyUpdate (_dt : Word64) (s : State) : Res :=
  let mj := s.jobEnergy
  let total := (s.power.words.map (fun x => x.2)).sum
  let s1 := if total = 0 then s.addEnergy (Reg.powJobIdle 0) mj
    else s.power.words.foldl (fun (x : State) w => x.addEnergy (Reg.powJob w.1 0) (mj * w.2 / total)) s
  .next { s1 with power := { s1.power with words := [], jobSum := 0 } }

/-! ### Clock gating (R392, R393) -/

/-- Whether a block may be gated: none where no such block may, else whether its condition holds (R392). -/
def State.gateable (s : State) (node block : Nat) : Option Bool :=
  if node < 4 ∨ 8 ≤ node then none
  else if 0x20 ≤ block ∧ block < 0x30 then
    let w := s.cfg (Reg.octMode (16 * (node - 4) + (block - 0x20)))
    some (!bit w 31 && decide (bits w 11 8 = 0) && decide (bits w 15 12 = 0))
  else if 0x38 ≤ block ∧ block < 0x3E then some (s.gdState (6 * (node - 4) + (block - 0x38)) == 4)
  else if block = 0x3F then
    some (!(List.range 32).any (fun h =>
      halfFabric (s.cfg (Reg.octMode (16 * (node - 4) + h / 2))) (h % 2)))
  else none

/-- The bit of CLK_GATED that stands for a block. -/
def gateBit (block : Nat) : Nat := if block = 0x3F then 0 else if block < 0x30 then block - 0x20 + 16 else block - 0x38 + 8

/-- A block's clock is gated. -/
def State.gated (s : State) (node block : Nat) : Bool :=
  decide (4 ≤ node) && decide (node < 8) &&
  ((decide (0x20 ≤ block) && decide (block < 0x30)) || (decide (0x38 ≤ block) && decide (block < 0x3E)) ||
    decide (block = 0x3F)) && bit (s.reg (Reg.clkGated (node - 4))) (gateBit block)

/-- A request completes: RESULT is set and GO cleared. -/
def State.gateDone (s : State) (result : Nat) : State :=
  let s1 := (s.setReg Reg.clkGateResult (BitVec.ofNat 32 result)).clrBit Reg.clkGateCmd 31
  { s1 with power := { s1.power with gate := none } }

/-- A write of CLK_GATE_CMD: ignored while GO reads 1. -/
def State.gateCmdWrite (s : State) (v : Word32) : State :=
  if bit (s.reg Reg.clkGateCmd) 31 then s
  else
    let s1 := s.setReg Reg.clkGateCmd (v &&& 0x80000001)
    if bit v 31 = false then s1
    else
      let node := bits (s.reg Reg.clkGateSel) 31 28
      let block := bits (s.reg Reg.clkGateSel) 27 20
      match s1.gateable node block with
      | none => s1.gateDone 3
      | some false => s1.gateDone 4
      | some true => { s1 with power := { s1.power with gate := some (256 * node + block, 0) } }

/-- OP of the request in progress: true gates. -/
def State.gateOp (s : State) : Bool := bit (s.reg Reg.clkGateCmd) 0

/-- Gate or ungate the block of a request. -/
def State.gateApply (s : State) (sel : Nat) (on : Bool) : State :=
  let n := gateBit (sel % 256)
  ((s.setReg (Reg.clkGated (sel / 256 - 4)) (setBits (s.reg (Reg.clkGated (sel / 256 - 4))) n n (b2n on)))).gateDone 1

/-- CLK_GATE (R392, R393): the agent of the requested block has quiesced and its clock stops; a block that is in use again
fails. -/
def execClkGate (s : State) : Res :=
  match s.power.gate with
  | none => .next s
  | some (sel, _) =>
    if s.gateOp = false then .next s
    else if s.gateable (sel / 256) (sel % 256) = some true then .next (s.gateApply sel true)
    else .next (s.gateDone 4)

/-- An ungate in progress takes effect. -/
def State.ungate (s : State) : State :=
  match s.power.gate with
  | none => s
  | some (sel, _) => if s.gateOp then s else s.gateApply sel false

/-- CLK_UNGATE (R393). -/
def execClkUngate (s : State) : Res := .next s.ungate

/-- GATE_BUSY (R393): the agent has not quiesced within 64 ticks. -/
def execGateBusy (s : State) : Res :=
  match s.power.gate with
  | none => .next s
  | some (_, age) =>
    if s.gateOp = true ∧ 64 ≤ age then .next ((s.gateDone 2).setEv Reg.clkEvents 5) else .next s

/-- At a boundary an ungate acts and a gate request ages. -/
def State.gateTick (s : State) : State :=
  let s1 := s.ungate
  { s1 with power := { s1.power with gate := s1.power.gate.map (fun g => (g.1, g.2 + 1)) } }

end Sys2Proof.Machine
end

