-- ==== Sys2Proof/Machine/Almanac.lean ====
section
/-! DEFINITION. The tick count and its phase: TICK_SYNC, TICK_SET, RESYNC and TICK_OUT (chapter 2, section 6). -/

namespace Sys2Proof.Machine

/-- TICK_SRC: true for TICK_SYNC. -/
def State.synced (s : State) : Bool := decide (s.strapF 8 8 = 1)

/-- Where the boundary that a pulse defines falls, in REFCLK edges, when its edge E is counted from the same point (R55). -/
def State.pulseAt (s : State) (edge : Nat) : Nat := edge + 2 + s.cfgF Reg.almSync 4 0

/-- The local boundary nearest to a point p edges into this tick: how many boundaries on, and how far off. -/
def State.nearest (s : State) (p : Int) : Nat × Int :=
  let l := s.tickEdges
  if 2 * p < l then (0, p)
  else
    let j := ((2 * (p - l) + 25) / 50).toNat
    (j + 1, p - l - 25 * j)

/-- A pulse is in step (R57). -/
def State.inStep (s : State) (edge : Nat) : Bool :=
  let n := s.nearest (s.pulseAt edge)
  decide (n.2.natAbs ≤ s.cfgF Reg.almSync 17 16) && decide ((s.now + n.1) % 1024 = 0)

/-- One expected pulse was missing or off. -/
def State.pulseBad (s : State) : State := ({ s with alm := { s.alm with syncBad := s.alm.syncBad + 1 } }).setEv Reg.almEvents 0

/-- TICK_SYNC_PULSE (R55 to R57): edge E counted from the last boundary. Outside RUNNING the tick ends where the pulse
says; in RUNNING the pulse is judged, and one that is off counts once for each expected pulse (DEDUCED, log 54). -/
def execTickSyncPulse (edge : Nat) (s : State) : Res :=
  if s.synced = false ∨ s.coreOn = false then .next s
  else if s.running = false then
    .next { s with alm := { s.alm with
      pulseSeen := true, displaced := (s.pulseAt edge : Int) - 25, syncLost := false, syncBad := 0 } }
  else if s.inStep edge then .next { s with alm := { s.alm with pulseSeen := true, syncBad := 0, syncLost := false } }
  else
    let s1 := (s.bump Reg.almSyncErrCnt 1).setEv Reg.almEvents 0
    let s2 := if s1.alm.pulseSeen then s1 else s1.pulseBad
    .next { s2 with alm := { s2.alm with pulseSeen := true } }

/-- SYNC_LOST (R57). -/
def execSyncLost (s : State) : Res :=
  let lim := s.cfgF Reg.almSync 27 24
  if s.running = true ∧ s.synced = true ∧ lim ≠ 0 ∧ lim ≤ s.alm.syncBad ∧ s.alm.syncLost = false then
    .next (({ s with alm := { s.alm with syncLost := true } }.setEv Reg.almEvents 1).notice 0x0020 [])
  else .next s

/-- RESYNC (R58): the write of 1 to RESYNC. -/
def execResync (s : State) : Res := .next (s.setEv Reg.almCtl 1)

/-- The offset by which the tick after this one is lengthened, when the pulse's edge E falls in it, counted from its first
boundary: the distance from the nearest boundary at a multiple of 1,024. -/
def State.resyncOff (s : State) (edge : Nat) : Int :=
  let t : Int := s.now + 1
  let p : Int := s.pulseAt edge
  let m := (t + 512) / 1024 * 1024
  p - 25 * (m - t)

/-- RESYNC_TICK (R58): the pulse falls in the next tick, which is shortened or lengthened and carries no slots and no cells
(log 54). An offset above 12 edges waits for the next pulse. -/
def execResyncTick (edge : Nat) (s : State) : Res :=
  if s.running = false ∨ s.synced = false ∨ bit (s.reg Reg.almCtl) 1 = false then .next s
  else if (s.resyncOff edge).natAbs ≤ 12 then
    .next { s with alm := { s.alm with resyncNext := some (s.resyncOff edge), next := 0 } }
  else .next (s.setEv Reg.almEvents 0)

/-- A write of ALM_TICK_SET_HI arms the load: none in RUNNING, where it is refused with CONFIG_LOCKED (R56). -/
def State.tickSetTo (s : State) (v : Word32) : Option State :=
  if s.running then none
  else
    let n : BitVec 48 := (v.extractLsb' 0 16) ++ (s.reg Reg.almTickSetLo &&& 0xFFFFFC00)
    let s1 := s.upperWrite Reg.almTickSetHi v 0xFFFF
    some { s1 with alm := { s1.alm with setArmed := some n } }

/-- ALM_TICK_SET_HI_WRITE (R56): a refused write changes nothing. -/
def execAlmTickSetHiWrite (v : Word32) (s : State) : Res := .next ((s.tickSetTo v).getD s)

/-- TICK_OUT_PULSE (R55): the local boundary at a multiple of 1,024 is TICK_OUT_ADV edges ahead. -/
def execTickOutPulse (s : State) : Res :=
  let adv := s.cfgF Reg.almSync 12 8
  if s.coreOn = true ∧ s.cfgB Reg.almCtl 0 = true ∧ (if adv = 0 then s.now % 1024 = 0 else (s.now + 1) % 1024 = 0) then
    .next (s.emit (.pulse 16))
  else .next s

/-- The count of the tick that begins, and whether an armed value was loaded (R38, R56). -/
def State.nextCount (s : State) : BitVec 48 × Bool :=
  let n := s.alm.tick + 1
  if s.running then (n, false)
  else
    let due := if s.synced then s.alm.pulseSeen else decide (n.toNat % 1024 = 0)
    match due, s.alm.setArmed with
    | true, some v => (v, true)
    | true, none => (BitVec.ofNat 48 ((n.toNat + 1023) / 1024 * 1024), false)
    | false, _ => (n, false)

/-- At a boundary the tick count moves; a missing pulse is judged one tick after it was expected, and a RESYNC begins or
ends its tick (R38, R56 to R58). A pulse that defines this boundary is still known when the device enters RUNNING at it. -/
def State.almTick (s : State) : State :=
  let c := s.nextCount
  let judge := s.running && s.synced && decide (c.1.toNat % 1024 = 1)
  let s1 := if judge && !s.alm.pulseSeen then s.pulseBad else s
  let s2 := if s.alm.resyncTick then (s1.setEv Reg.almEvents 3).clrBit Reg.almCtl 1 else s1
  { s2 with alm := { s2.alm with
      tick := c.1
      setArmed := if c.2 then none else s2.alm.setArmed
      pulseSeen := s2.alm.pulseSeen && !judge
      displaced := s2.alm.resyncNext.getD 0
      resyncTick := s2.alm.resyncNext.isSome
      resyncNext := none } }

end Sys2Proof.Machine
end

