-- ==== Sys2Proof/Machine/DinumHeader.lean ====
section
/-! DEFINITION. Header words (R117 to R119, Table 4.5), the call slip words of Table 4.8 and SASEL (R129, R133). -/

namespace Sys2Proof.Machine

/-- Every HDR_OFF entry other than 0xFF replaced by f of it (R119). -/
def mapHdrOff (f : Nat → Nat) (slip : BitVec 1024) : BitVec 1024 :=
  (List.range 32).foldl (fun sl i =>
    let e := (slipByte sl (0x10 + i)).toNat
    if e = 0xFF then sl else slipPut sl (0x10 + i) (BitVec.ofNat 8 (f e))) slip

/-- Insert n bytes at window offset o: the window is at most 256 bytes, what is moved out of it begins the tail, and
HDR_OFF entries follow (R118, R119). -/
def Thread.insertBytes (th : Thread) (o : Nat) (bs : List Byte) : Thread :=
  let n := bs.length
  let o' := min o th.win.length
  if n = 0 then th
  else
    let w := th.win.take o' ++ bs ++ th.win.drop o'
    { th with
      win := w.take 256
      tail := w.drop 256 ++ th.tail
      slip := mapHdrOff (fun e => if e < o' then e else if 255 ≤ e + n then 0xFF else e + n) th.slip }

/-- Delete n bytes at window offset o (R118, R119). -/
def Thread.deleteBytes (th : Thread) (o n : Nat) : Thread :=
  let o' := min o th.win.length
  let m := min n (th.win.length - o')
  if n = 0 then th
  else
    { th with
      win := th.win.take o' ++ th.win.drop (o' + m)
      slip := mapHdrOff (fun e => if e < o' then e else if e < o' + m then 0xFF else e - m) th.slip }

/-- LDH: C bytes of the window from offset B, big-endian. -/
def hdrLdh (a b : Operand) (c : BitVec 12) (th : Thread) : Thread :=
  writeOp th (BitVec.ofNat 64 (winGet th (readOp th b).toNat c.toNat)) a

/-- STH: window bytes from offset A become the low C bytes of B. -/
def hdrSth (a b : Operand) (c : BitVec 12) (th : Thread) : Thread :=
  winPut th (readOp th a).toNat (beBytes c.toNat (readOp th b).toNat)

/-- INSH: B mod 256 zero bytes at offset A. -/
def hdrInsh (a b : Operand) (th : Thread) : Thread :=
  th.insertBytes (readOp th a).toNat (List.replicate ((readOp th b).toNat % 256) 0)

/-- DELH: B mod 256 bytes at offset A. -/
def hdrDelh (a b : Operand) (th : Thread) : Thread := th.deleteBytes (readOp th a).toNat ((readOp th b).toNat % 256)

/-- ALIGN: the bytes before HDR_OFF A. -/
def hdrAlign (a : BitVec 12) (th : Thread) : Thread :=
  let e := hdrOff th a.toNat
  if e = 0xFF then th else th.deleteBytes 0 e

/-- SLIP.DEST: DEST := A[3:0] x 2^28 + B[27:0]; RO at egress (R130). -/
def slipDestTo (a : BitVec 12) (b : Operand) (th : Thread) : Thread :=
  let v := a.toNat % 16 * 2 ^ 28 + (readOp th b).toNat % 2 ^ 28
  { th with slip := slipWriteN th.egress th.slip 0x30 (leBytes 4 v) }

/-- SLIP.CLASS: TC_DP[2:0] := A[2:0], TC_DP[4:3] := B[1:0]; RO at egress. -/
def slipClassTo (a b : Operand) (th : Thread) : Thread :=
  let v := (readOp th a).toNat % 8 + 8 * ((readOp th b).toNat % 4)
  { th with slip := slipWrite th.egress th.slip 0x07 (BitVec.ofNat 8 v) }

/-- SLIP.EGR: EG_ENTRY := A[5:0], POOL := B[3:0]; RO at egress. -/
def slipEgrTo (a b : Operand) (th : Thread) : Thread :=
  let e := (readOp th a).toNat % 64
  let p := (readOp th b).toNat % 16
  { th with slip := slipWriteN th.egress th.slip 0x3E [BitVec.ofNat 8 e, BitVec.ofNat 8 p] }

/-- SASEL: SA := A[17:0] with the valid bit set. -/
def saselTo (a : Operand) (th : Thread) : Thread :=
  { th with slip := slipSet th.slip 0x40 4 ((readOp th a).toNat % 2 ^ 18 + 2 ^ 31) }

/-- LDH (R117). -/
def execLdh (t : Tid) (p : BitVec 4) (a b : Operand) (c : BitVec 12) (s : State) : Res :=
  runLocal t ⟨0x100, p, a, b, .uimm c⟩ s (hdrLdh a b c)

/-- STH (R117). -/
def execSth (t : Tid) (p : BitVec 4) (a b : Operand) (c : BitVec 12) (s : State) : Res :=
  runLocal t ⟨0x101, p, a, b, .uimm c⟩ s (hdrSth a b c)

/-- INSH (R118). -/
def execInsh (t : Tid) (p : BitVec 4) (a b : Operand) (s : State) : Res :=
  runLocal t ⟨0x102, p, a, b, .none⟩ s (hdrInsh a b)

/-- DELH (R118). -/
def execDelh (t : Tid) (p : BitVec 4) (a b : Operand) (s : State) : Res :=
  runLocal t ⟨0x103, p, a, b, .none⟩ s (hdrDelh a b)

/-- ALIGN (R118). -/
def execAlign (t : Tid) (p : BitVec 4) (a : BitVec 12) (s : State) : Res :=
  runLocal t ⟨0x104, p, .uimm a, .none, .none⟩ s (hdrAlign a)

/-- SLIP.DEST (R129, R130). -/
def execSlipDest (t : Tid) (p : BitVec 4) (a : BitVec 12) (b : Operand) (s : State) : Res :=
  runLocal t ⟨0x420, p, .uimm a, b, .none⟩ s (slipDestTo a b)

/-- SLIP.CLASS (R129, R130). -/
def execSlipClass (t : Tid) (p : BitVec 4) (a b : Operand) (s : State) : Res :=
  runLocal t ⟨0x421, p, a, b, .none⟩ s (slipClassTo a b)

/-- SLIP.EGR (R129, R130). -/
def execSlipEgr (t : Tid) (p : BitVec 4) (a b : Operand) (s : State) : Res :=
  runLocal t ⟨0x422, p, a, b, .none⟩ s (slipEgrTo a b)

/-- SASEL (R133). -/
def execSasel (t : Tid) (p : BitVec 4) (a : Operand) (s : State) : Res :=
  runLocal t ⟨0x700, p, a, .none, .none⟩ s (saselTo a)

end Sys2Proof.Machine
end

