-- ==== Sys2Proof/Machine/DinumMisc.lean ====
section
/-! DEFINITION. Counters and meters, time and telemetry, and buffers (R131 to R133, R366, Tables 4.9 to 4.11, 14.4). -/

namespace Sys2Proof.Machine

/-- CNT: add B, or 1, to program counter A[13:0] of the slice. -/
def cntWord (t : Tid) (a b : Operand) (th : Thread) : Thread :=
  let i := (readOp th a).toNat % 2 ^ 14
  let n : Word64 := if b = .none then 1 else readOp th b
  th.append (.cnt (16384 * sliceOf t.cluster.val + i) n)

/-- CNT (R131). -/
def execCnt (t : Tid) (p : BitVec 4) (a b : Operand) (s : State) : Res :=
  runLocal t ⟨0x500, p, a, b, .none⟩ s (cntWord t a b)

/-- METER: the colour from the buckets as they stand, the debit deferred (R78). -/
def meterWordRun (t : Tid) (a b c : Operand) (s : State) (th : Thread) : State × Thread :=
  let m := (readOp th b).toNat % 2 ^ 14
  let n := if c = .none then slipGet th.slip 0 2 else (readOp th c).toNat
  let pre := min 2 (bits (slipByte th.slip 7) 4 3)
  let r := s.meterColour (sliceOf t.cluster.val) m n pre
  (s, (writeOp th (BitVec.ofNat 64 r.1) a).append (.meter m r.2.1 r.2.2))

/-- METER (R78, R131). -/
def execMeter (t : Tid) (p : BitVec 4) (a b c : Operand) (s : State) : Res :=
  runWord t ⟨0x501, p, a, b, c⟩ s (meterWordRun t a b c)

/-- A bank counter inside its slice's windows, or a counter of no bank (R358). -/
def State.ctrShown (s : State) (n : Nat) : Bool :=
  if n < 0x38000 ∨ 0x60000 ≤ n then true
  else
    let sl := (n - 0x38000) / 0x5000
    decide ((n - 0x38000) % 0x5000 < 2 * (bits (s.cfg (Reg.chrSliceQ sl)) 13 0 + bits (s.cfg (Reg.chrSliceSa sl)) 13 0))

/-- A device counter as it is read: numbers of reserved ranges and bank counters beyond the windows read as zero (R355,
R357, R358). -/
def State.ctrRead (s : State) (n : Nat) : Word64 := if ctrExists n && s.ctrShown n then SMap.find 0 s.ctrs.ctr n else 0

/-- CREAD: device counter B[18:0]. -/
def creadWord (a b : Operand) (s : State) (th : Thread) : State × Thread :=
  (s, writeOp th (s.ctrRead ((readOp th b).toNat % 2 ^ 19)) a)

/-- CREAD (R131). -/
def execCread (t : Tid) (p : BitVec 4) (a b : Operand) (s : State) : Res :=
  runWord t ⟨0x502, p, a, b, .none⟩ s (creadWord a b)

/-- TSTAMP: the ns field of the output timescale at issue below, tick count [31:0] above. -/
def tstampWord (a : Operand) (dt : Word64) (s : State) (th : Thread) : State × Thread :=
  (s, writeOp th (s.alm.tick.extractLsb' 0 32 ++ nsOf (s.oAt dt)) a)

/-- TSTAMP (R132). -/
def execTstamp (t : Tid) (p : BitVec 4) (a : Operand) (dt : Word64) (s : State) : Res :=
  runWord t ⟨0x600, p, a, .none, .none⟩ s (tstampWord a dt)

/-- Depth of a queue as sampled at the boundary that began the tick (R132). -/
def State.depthSample (s : State) (q : Nat) : Nat := SMap.find 0 s.tm.depthAt q

/-- QDEPTH: the depth of egress queue B[17:0]. -/
def qdepthWord (a b : Operand) (s : State) (th : Thread) : State × Thread :=
  (s, writeOp th (BitVec.ofNat 64 (s.depthSample ((readOp th b).toNat % 2 ^ 18))) a)

/-- QDEPTH (R132). -/
def execQdepth (t : Tid) (p : BitVec 4) (a b : Operand) (s : State) : Res :=
  runWord t ⟨0x601, p, a, b, .none⟩ s (qdepthWord a b)

/-! ### IOAM (R366) -/

/-- The byte of the window that a header operand names; none through an absent HDR_OFF. -/
def hdrPlace (th : Thread) : Operand → Option Nat
  | .hdrAbs off _ => some off.toNat
  | .hdrRel i d _ => if hdrOff th i.toNat = 0xFF then none else some (hdrOff th i.toNat + d.toNat)
  | _ => none

/-- Hop_Lim (Table 14.4). -/
def State.ioamHop (s : State) (th : Thread) : Nat :=
  let w := s.cfg Reg.chrIoam
  let o := hdrOff th (bits w 12 8)
  if o = 0xFF then 0xFF else (winByte th (o + bits w 7 0)).toNat

/-- The bytes that trace-type bit n writes (Table 14.4); none for the bits that write nothing. -/
def State.ioamField (s : State) (th : Thread) (node : Word64) (n : Nat) : List Byte :=
  let slip := th.slip
  let inPort := slipGet slip 0x02 2
  let dest := slipGet slip 0x30 4
  let uni := decide (dest / 2 ^ 28 = 1)
  let outPort := if uni then dest / 2 ^ 18 % 1024 else 0xFFFF
  let outWide := if uni then dest / 2 ^ 18 % 1024 else 0xFFFF
  let adm := slipGet slip 0x08 4
  let ones := List.replicate 4 (0xFF : Byte)
  match n with
  | 0 => beBytes 1 (s.ioamHop th) ++ beBytes 3 node.toNat
  | 1 => beBytes 2 inPort ++ beBytes 2 outPort
  | 2 => ones
  | 3 => beBytes 4 ((adm + 2 ^ 32 - (s.cfg Reg.chrIoamSec).toNat) % 2 ^ 32 % 1000000000)
  | 4 =>
    if th.egress then
      let d := (slipGet slip 0x70 4 + 2 ^ 32 - adm) % 2 ^ 32
      beBytes 4 (if 2 ^ 31 ≤ d then d % 2 ^ 31 + 2 ^ 31 else d)
    else ones
  | 5 => ones
  | 6 =>
    if th.egress then beBytes 4 (slipGet slip 0x74 4)
    else if uni then beBytes 4 (s.depthSample (dest % 2 ^ 18))
    else ones
  | 7 => ones
  | 8 => beBytes 1 (s.ioamHop th) ++ beBytes 7 node.toNat
  | 9 => beBytes 4 inPort ++ beBytes 4 outWide
  | 10 => ones ++ ones
  | 11 => ones
  | 22 => []
  | _ => ones

/-- The node data of a trace type: the fields of the bits set, in trace-type order, bit 0 the most significant of the
24. -/
def State.ioamData (s : State) (th : Thread) (node : Word64) (trace : Nat) : List Byte :=
  (List.range 24).flatMap (fun n => if trace / 2 ^ (23 - n) % 2 = 1 then s.ioamField th node n else [])

/-- IOAM (R132, R366): the header of RFC 9197 at the option's first byte is Namespace-ID (16 bits), NodeLen (5), Flags
(4, the first being Overflow), RemainingLen (7), IOAM-Trace-Type (24), reserved (8), then the node data. PRESUMED: this
layout is the RFC's (log 23). -/
def ioamWord (a b : Operand) (inc : BitVec 12) (s : State) (th : Thread) : State × Thread :=
  match hdrPlace th a with
  | none => (s, { th with z := false })
  | some o =>
    let h := winGet th (o + 2) 2
    let nodeLen := h / 2 ^ 11
    let rem := h % 2 ^ 7
    let trace := winGet th (o + 4) 3
    let data := s.ioamData th (readOp th b) trace
    if trace / 2 % 2 = 1 ∨ nodeLen * 4 < data.length then (s, { th with z := true })
    else if rem < nodeLen then
      (s, { winPut th (o + 2) (beBytes 2 (h ||| 2 ^ 10)) with z := true })
    else if inc = 0 then
      let th1 := winPut th (o + 8 + 4 * (rem - nodeLen)) data
      (s, { winPut th1 (o + 2) (beBytes 2 (h - nodeLen)) with z := false })
    else
      let th1 := th.insertBytes (o + 8) (List.replicate (4 * nodeLen) 0)
      (s, { winPut th1 (o + 8) data with z := false })

/-- IOAM (R132, R366). -/
def execIoam (t : Tid) (p : BitVec 4) (a b : Operand) (c : BitVec 12) (s : State) : Res :=
  runWord t ⟨0x602, p, a, b, .uimm c⟩ s (ioamWord a b c)

/-! ### Buffers -/

/-- A buffer handle (R133). -/
def handleOf (b : Buf) : Word64 := BitVec.ofNat 64 (b.pool * 2 ^ 60 + b.num % 2 ^ 32)

/-- BALLOC: reserve a buffer from pool B[3:0] or its fallback chain; Z tells that none was taken (R77). -/
def ballocWord (t : Tid) (a b : Operand) (s : State) (th : Thread) : State × Thread :=
  match s.draw .any (sliceOf t.cluster.val / 2) chainLen ((readOp th b).toNat % 16) 1 with
  | (s1, []) => (s1, { writeOp th 0 a with z := true })
  | (s1, x :: _) =>
    let th1 := writeOp th (handleOf x) a
    (s1, { th1 with z := false, buf := th1.buf ++ [.balloc x], taken := th1.taken ++ [x] })

/-- BALLOC (R77, R133). -/
def execBalloc (t : Tid) (p : BitVec 4) (a b : Operand) (s : State) : Res :=
  runWord t ⟨0x701, p, a, b, .none⟩ s (ballocWord t a b)

/-- BFREE: free the buffer whose handle is A at commit. Bits [59:32] of a handle are not looked at (DESIGN CHOICE, log 85). -/
def bfreeWord (a : Operand) (th : Thread) : Thread :=
  let h := (readOp th a).toNat
  th.append (.bfree (h / 2 ^ 60) (h % 2 ^ 32))

/-- BFREE (R133, R199). -/
def execBfree (t : Tid) (p : BitVec 4) (a : Operand) (s : State) : Res :=
  runLocal t ⟨0x702, p, a, .none, .none⟩ s (bfreeWord a)

end Sys2Proof.Machine
end

