-- ==== Sys2Proof/Machine/Counters.lean ====
section
/-! DEFINITION. Threshold counters, counter windows and the Chronicle (chapter 14, sections 2, 4 and 6). -/

namespace Sys2Proof.Machine

/-! ### Threshold counters (R361) -/

/-- The least and the greatest occupancy that the object of a configuration word has had in this tick; none with KIND 0 or a
reserved KIND. -/
def State.occupancy (s : State) (w : Word32) : Option (Nat × Nat) :=
  let o := bits w 17 0
  match bits w 31 28 with
  | 1 => some ((s.queue o).lo, (s.queue o).hi)
  | 2 => some ((s.pool o).lo, (s.pool o).hi)
  | 3 => some ((s.slice o).lo, (s.slice o).hi)
  | 4 => some (s.tm.resLo, s.tm.resHi)
  | _ => none

/-- KIND is not reserved and OBJECT is in its range. -/
def thrOk (w : Word32) : Bool :=
  let o := bits w 17 0
  match bits w 31 28 with
  | 0 => true
  | 1 => true
  | 2 => decide (o < 16)
  | 3 => decide (o < 8)
  | 4 => decide (o = 0)
  | _ => false

/-- A write of a configuration word: none in RUNNING where it would break the rules (BAD_VALUE). -/
def State.thrTo (s : State) (t w : Nat) (v : Word32) : Option State :=
  let v1 := if w = 0 then v &&& 0xF003FFFF else v
  let w0 := if w = 0 then v1 else s.reg (Reg.chrThr t 0)
  if s.running = true ∧ thrOk w0 = false then none
  else
    let s1 := s.setReg (Reg.chrThr t w) v1
    some { s1 with ctrs := { s1.ctrs with thrClear := if s1.ctrs.thrClear.contains t then s1.ctrs.thrClear else s1.ctrs.thrClear ++ [t] } }

/-- CHR_THR_WRITE (R361): a refused write changes nothing. -/
def execChrThrWrite (t : Fin 1024) (w : Fin 2) (v : Word32) (s : State) : Res := .next ((s.thrTo t.val w.val v).getD s)

/-- The value of a threshold counter. -/
def State.thrVal (s : State) (t : Nat) : Word64 := SMap.find 0 s.ctrs.thr t

/-- Core cycles of this tick, less what stretches removed (R44). -/
def State.coreCycles (s : State) : Nat := cyclesOf s.power.k - s.power.stretch

/-- A threshold counter after a tick: all its cycles where N was exceeded throughout, none where it never was, and else some
of them, a FREE VALUE (log 56). -/
def State.thrAdd (s : State) (t : Nat) : State :=
  match s.occupancy (s.cfg (Reg.chrThr t 0)) with
  | none => s
  | some (lo, hi) =>
    let lim := (s.cfg (Reg.chrThr t 1)).toNat
    let n := s.coreCycles
    if hi ≤ lim then s
    else
      let add := if lim < lo then n else (Config.freeWord s.free).toNat % (n + 1)
      let s1 := if lim < lo then s else s.nextFree
      { s1 with ctrs := { s1.ctrs with thr := SMap.set 0 s1.ctrs.thr t (s1.thrVal t + BitVec.ofNat 64 add) } }

/-- The threshold counters that count something. -/
def State.thrUsed (s : State) : List Nat :=
  (List.range 1024).filter (fun t => decide (bits (s.cfg (Reg.chrThr t 0)) 31 28 ≠ 0))

/-- At a boundary the threshold counters take the tick that ended. -/
def State.thrCount (s : State) : State := s.thrUsed.foldl (fun x t => x.thrAdd t) s

/-- At a boundary, with the written settings in force, the counters whose settings changed start from 0. -/
def State.thrStart (s : State) : State :=
  let s1 := s.ctrs.thrClear.foldl (fun (x : State) t =>
    { x with ctrs := { x.ctrs with thr := SMap.set 0 x.ctrs.thr t 0 } }) s
  { s1 with ctrs := { s1.ctrs with thrClear := [] } }

/-! ### The Chronicle (R363 to R365) -/

/-- Bytes of a record. -/
def recordBytes : Nat := 4210688

/-- Bytes and base of the region REGION of a CHR_CFG word names, 0 bytes where it is not of kind CHRONICLE. -/
def State.chronRegion (s : State) (w : Word32) : Nat × Nat :=
  let r := bits w 28 24
  let a := s.reg (Reg.circRegionA r)
  (bits a 17 0 * regionUnit, if bits a 31 29 = 3 then bits (s.reg (Reg.circRegionB r)) 18 0 * regionUnit else 0)

/-- N: records that the ring of a CHR_CFG word holds. -/
def State.chronRecords (s : State) (w : Word32) : Nat := min (s.chronRegion w).2 (2 ^ 30) / recordBytes

/-- A write of CHR_CFG: none where it is refused with BAD_VALUE (R363). In RUNNING, REGION may not change. -/
def State.chrCfgTo (s : State) (v : Word32) : Option State :=
  let v1 := v &&& 0x1FFFFFFF
  let old := s.reg Reg.chrCfg
  let p := bits v1 23 0
  if s.running = true ∧ (bits v1 28 24 ≠ bits old 28 24 ∨ (1 ≤ p ∧ p ≤ 624) ∨ (p ≠ 0 ∧ s.chronRecords v1 = 0)) then none
  else some (s.setReg Reg.chrCfg v1)

/-- CHR_CFG_WRITE (R363): a refused write changes nothing. -/
def execChrCfgWrite (v : Word32) (s : State) : Res := .next ((s.chrCfgTo v).getD s)

/-- A write of CHR_RD_IDX: none outside [CHR_RD_IDX, CHR_WR_IDX] modulo 2^32 (BAD_VALUE). -/
def State.chrRdTo (s : State) (v : Word32) : Option State :=
  let rd := s.reg Reg.chrRdIdx
  if (v - rd).toNat ≤ (s.reg Reg.chrWrIdx - rd).toNat then some (s.setReg Reg.chrRdIdx v) else none

/-- CHR_RD_IDX_WRITE (R365): a refused write changes nothing. -/
def execChrRdIdxWrite (v : Word32) (s : State) : Res := .next ((s.chrRdTo v).getD s)

/-- Where the record of an index lies. -/
def State.recordAt (s : State) (w : Word32) (x : Nat) : Nat :=
  (s.chronRegion w).1 + x % max 1 (s.chronRecords w) * recordBytes

/-- One write of the Chronicle, counted as discarded where its stripe is unmapped (R209, R365). -/
def State.chronPut (s : State) (a : Nat) (bs : List Byte) : State :=
  s.postDone { addr := a, data := bs, add := false, quad := a / stripeBytes % 24 / 6 }

/-- What a snapshot latches at the boundary that ends this tick; O and the active domain are those after the boundary. In the first
after each entry into RUNNING the threshold counters read zero (KL-04). -/
def State.snapshot (s : State) : Snap :=
  let t := s.nextCount.1
  { begun := false
    tick := t
    ns := 0
    dom := 0
    since := (t.toNat + 2 ^ 48 - s.ctrs.lastSnap.getD 0) % 2 ^ 48
    thr := if s.ctrs.fresh then [] else s.ctrs.thr
    ctr := s.ctrs.ctr.filter (fun x => s.ctrShown x.1)
    hist := s.ctrs.hist }

/-- At a boundary whose tick count is a multiple of CHRON_PERIOD a snapshot is latched, before the commit buffers drain; with
a record still being written it is skipped and counted (R363). -/
def State.chronTick (s : State) : State :=
  let w := s.cfg Reg.chrCfg
  let p := bits w 23 0
  if p = 0 ∨ s.chronRecords w = 0 ∨ s.nextCount.1.toNat % p ≠ 0 then s
  else if s.ctrs.snap.isSome then (s.bump Reg.chrSkipCnt 1).setEv Reg.chrEvents 1
  else { s with ctrs := { s.ctrs with snap := some s.snapshot, lastSnap := some s.nextCount.1.toNat, fresh := false } }

/-- A snapshot latched at this boundary carries O and the active domain as they stand from it on (Table 14.3). -/
def State.chronStamp (s : State) : State :=
  match s.ctrs.snap with
  | none => s
  | some x =>
    if x.begun ∨ x.tick ≠ s.alm.tick then s
    else { s with ctrs := { s.ctrs with snap := some { x with ns := nsOf s.oNow, dom := s.time.active } } }

/-- CHRON_SNAPSHOT (R363 to R365): the record of the snapshot latched at the last boundary is begun. It overwrites the oldest
of a full ring, and its first header word is 0 until it is whole. -/
def execChronSnapshot (s : State) : Res :=
  let w := s.cfg Reg.chrCfg
  match s.ctrs.snap with
  | none => .next s
  | some x =>
    if x.begun then .next s
    else
      let wr := s.reg Reg.chrWrIdx
      let rd := s.reg Reg.chrRdIdx
      let s1 := if s.chronRecords w ≤ (wr - rd).toNat then
          ((s.setReg Reg.chrRdIdx (rd + 1)).bump Reg.chrLapCnt 1).setEv Reg.chrEvents 0
        else s
      let s2 := s1.chronPut (s1.recordAt w wr.toNat) [0, 0, 0, 0]
      .next { s2 with ctrs := { s2.ctrs with snap := some { x with begun := true } } }

/-- n 64-bit values, little-endian. -/
def leWords (m : SMap (BitVec 64)) (n : Nat) : List Byte :=
  (List.range n).flatMap (fun i => leBytes 8 (SMap.find 0 m i).toNat)

/-- A record (Table 14.3). -/
def Snap.bytes (x : Snap) (seq : Nat) : List Byte :=
  leBytes 4 0x43524E31 ++ leBytes 4 seq ++ leBytes 8 x.tick.toNat ++ leBytes 4 x.ns.toNat ++ [BitVec.ofNat 8 x.dom, 0, 0, 0] ++
  leBytes 8 x.since ++ List.replicate 0x1FE0 0 ++ leWords x.thr 1024 ++ leWords x.ctr 393216 ++ leWords x.hist 131072

/-- CHRON_RECORD_DONE (R364, R365): the record is written, a stripe at a time, and CHR_WR_IDX advances. -/
def execChronRecordDone (s : State) : Res :=
  match s.ctrs.snap.filter (fun x => x.begun) with
  | none => .next s
  | some x =>
    let w := s.cfg Reg.chrCfg
    let wr := s.reg Reg.chrWrIdx
    let bs := x.bytes wr.toNat
    let a := s.recordAt w wr.toNat
    let s1 := (List.range (recordBytes / stripeBytes)).foldl
      (fun (y : State) i => y.chronPut (a + stripeBytes * i) ((bs.drop (stripeBytes * i)).take stripeBytes)) s
    .next (({ s1 with ctrs := { s1.ctrs with snap := none } }.setReg Reg.chrWrIdx (wr + 1)).setEv Reg.chrEvents 2)

end Sys2Proof.Machine
end

