-- ==== Sys2Proof/Machine/Check.lean ====
section
/-! DEFINITION. The consistency check: every reason of Table 16.4 in its order, each with the detail word of the first
object it refuses (R404 to R406). A condition lists the details of the objects it refuses, in check order. -/

namespace Sys2Proof.Machine

/-- The index form of a detail word (R405). -/
def detailIx (node block i : Nat) : Nat := mkCa node block (i % 2 ^ 20)

/-- The index form for a block of slice s. -/
def sliceIx (b s i : Nat) : Nat := sliceCa b s (i % 2 ^ 20)

/-- The objects of a list that a condition refuses, by their details. -/
def badOf (l : List Nat) (bad : Nat → Bool) (detail : Nat → Nat) : List Nat := (l.filter bad).map detail

/-- The registers of list m that lie in the range [lo, hi) of control addresses and that a condition refuses. -/
def badRegs (m : SMap Word32) (lo hi : Nat) (bad : Nat → Word32 → Bool) : List Nat :=
  (m.filter (fun x => decide (lo ≤ x.1) && decide (x.1 < hi) && bad x.1 x.2)).map (fun x => x.1)

/-! ### Area 0x01: Scribes and the Almanac -/

/-- The reference cluster (R89). -/
def State.refCluster (s : State) : Cluster := s.cluster (s.sound.headD 0)

/-- The kind at each entry index of a cluster's image; 0 is absent (R89). -/
def shapeAt (c : Cluster) (i : Nat) : Nat :=
  match c.prog with
  | none => 0
  | some p => (p.entries.find? (fun e => e.index == i)).elim 0 (fun e => e.kind)

/-- The Codex version of a cluster. -/
def codexVer (c : Cluster) : Option Word32 := c.codex.map (fun x => x.version)

/-- The first entry index at which two clusters differ in shape. -/
def shapeDiff (a b : Cluster) : Option Nat :=
  (List.range 64).find? (fun i => shapeAt a i != shapeAt b i)

/-- U at MIN_OP as the check computes it (R49). -/
def State.checkU (s : State) : Nat := s.uAtMin (s.cfg Reg.powCtl) (s.cfgB Reg.powCtl 30)

/-- The reasons of area 0x01 that R49 and R89 give, for a list of clusters held against a reference. -/
def State.clusterChecks (s : State) (ks : List Nat) (ref : Cluster) : List (Nat × List Nat) := [
  (0x0101, ks.filterMap (fun k => (s.overU s.checkU k).map (fun e => sliceIx 0x14 (k / 4) (64 * (k % 4) + e)))),
  (0x0102, badOf ks (fun k => (s.cluster k).codex.isNone) (fun k => sliceIx 0x12 (k / 4) (k % 4))),
  (0x0103, badOf ks (fun k => (s.cluster k).prog.isNone) (fun k => sliceIx 0x14 (k / 4) (k % 4))),
  (0x0104, badOf ks (fun k => decide (codexVer (s.cluster k) ≠ codexVer ref)) (fun k => sliceIx 0x12 (k / 4) (k % 4))),
  (0x0105, ks.filterMap (fun k =>
    (shapeDiff ref (s.cluster k)).map (fun i => sliceIx 0x14 (k / 4) (64 * (k % 4) + i))))]

/-- TICK_TIMING. -/
def State.tickBad (s : State) : List Nat :=
  badOf [Reg.almSync] (fun a => decide (24 < s.cfgF a 12 8) || decide (24 < s.cfgF a 4 0)) id ++
  badOf [Reg.almLimit] (fun a => decide (64 < s.cfgF a 31 24)) id

/-- Area 0x01 of the enable check; with every cluster FAILED, PROGRAM_ABSENT names C0 (R89). -/
def State.checks1 (s : State) : List (Nat × List Nat) :=
  (if s.sound.isEmpty then [(0x0103, [sliceIx 0x14 0 0])] else s.clusterChecks s.sound s.refCluster) ++
  [(0x0106, s.tickBad)]

/-! ### Area 0x02: the directory -/

/-- The valid directory entries, by pair and table, rising. -/
def State.dirAll (s : State) : List (Nat × Nat) :=
  (s.dir.filter (fun x => dirValid x.2)).map (fun x => (x.1 / 256, x.1 % 256))

/-- The directory entries that a condition refuses. -/
def State.dirBad (s : State) (bad : Nat → Nat → DirEntry → Bool) : List Nat :=
  (s.dirAll.filter (fun x => bad x.1 x.2 (s.dirLive x.1 x.2))).map (fun x => Reg.catDir x.1 x.2 0)

/-- The area 0x02 reasons (R160); of two entries that overlap, the later is named (R405). -/
def State.checks2 (s : State) : List (Nat × List Nat) := [
  (0x0201, s.dirBad (fun p t e => s.dirOverlaps p (s.dirLive p) (List.range t) e)),
  (0x0202, s.dirBad (fun p _ e => s.dirOutside p e)),
  (0x0203, s.dirBad (fun p _ e => dirMisformed (s.dirLive p) e)),
  (0x0204, s.dirBad (fun _ _ e => s.dirStray e))]

/-! ### Area 0x03: the pools (Table 7.2) -/

/-- A pool is present: its COUNT is not 0 (R192). -/
def State.poolPresent (s : State) (p : Nat) : Bool := decide (s.poolCount p ≠ 0)

/-- Following FALLBACK from a pool returns to a pool already visited. -/
def State.poolCycle (s : State) : Nat → List Nat → Nat → Bool
  | 0, _, _ => true
  | n + 1, seen, p =>
    if seen.contains p then true
    else match s.poolFallback p with
      | none => false
      | some f => s.poolCycle n (p :: seen) f

/-- The fallback kinds that Table 7.1 permits. -/
def fallbackOk (kind f : Nat) : Bool :=
  match kind with
  | 0 => f == 0
  | 1 => f == 1 || f == 0
  | 2 => f == 2 || f == 3
  | _ => f == 3

/-- A pool names a fallback of a kind that its own does not permit. -/
def State.fallbackBad (s : State) (p : Nat) : Bool :=
  (s.poolFallback p).elim false (fun f => !fallbackOk (s.poolKind p) (s.poolKind f))

/-- An enabled shelve profile whose page pool is of no page kind. -/
def State.shelveBad (s : State) (k : Nat) : Bool :=
  let a := s.cfg (Reg.circShelveA k)
  bit a 31 && decide (s.poolKind (bits a 23 20) < 2)

/-- The ports that exist. -/
def State.ports' (s : State) : List Nat := (List.range 512).filter s.portExists

/-- POOL_KIND: pools and profiles of the hub, then ports. -/
def State.kindBad (s : State) : List Nat :=
  badOf (List.range 16) s.fallbackBad Reg.circPoolCfg ++ badOf (List.range 16) s.shelveBad Reg.circShelveA ++
  badOf s.ports' (fun p => decide (s.poolKind (s.cfgF (Reg.accPortCfg (p / 64) (p % 64)) 27 24) ≠ 0))
    (fun p => Reg.accPortCfg (p / 64) (p % 64))

/-- The region of a page pool. -/
def State.poolRegion (s : State) (p : Nat) : Nat := s.cfgF (Reg.circPoolBase p) 26 22

/-- POOL_RANGE of a present pool. -/
def State.poolRangeBad (s : State) (p : Nat) : Bool :=
  if s.poolKind p < 2 then decide (1290240 < s.cfgF (Reg.circPoolBase p) 20 0 + s.poolCount p)
  else
    let r := s.poolRegion p
    decide (s.regionKind r ≠ 1) ||
    decide (s.regionSize r * 24 * (if s.poolKind p = 2 then 8 else 1) < s.poolCount p)

/-- Two present pools conflict: ODB pools that share a cell, page pools of one region. -/
def State.poolsMeet (s : State) (a b : Nat) : Bool :=
  if s.poolKind a < 2 ∧ s.poolKind b < 2 then
    let x := s.cfgF (Reg.circPoolBase a) 20 0
    let y := s.cfgF (Reg.circPoolBase b) 20 0
    decide (x < y + s.poolCount b) && decide (y < x + s.poolCount a)
  else decide (2 ≤ s.poolKind a) && decide (2 ≤ s.poolKind b) && decide (s.poolRegion a = s.poolRegion b)

/-- The present page pools. -/
def State.pagePools (s : State) : List Nat :=
  (List.range 16).filter (fun p => s.poolPresent p && decide (2 ≤ s.poolKind p))

/-- First usable byte of a pool's ring and the byte after its last: 4 bytes per buffer, and a state word each in SB
mode (R192). -/
def State.ringSpan (s : State) (p : Nat) : Nat × Nat :=
  let o := s.cfgF (Reg.circPoolRing p) 26 0 * 4096
  (o, o + s.poolCount p * (if s.poolRa p then 4 else 5))

/-- RING_RANGE: the ring runs beyond the usable half of a FREE_RING region; another region has none. -/
def State.ringBad (s : State) (p : Nat) : Bool :=
  let r := s.ringRegion p
  let half := if s.regionKind r = 2 then s.regionSize r * (regionUnit / 2) else 0
  decide (half < (s.ringSpan p).2)

/-- Two rings share a byte. -/
def State.ringsMeet (s : State) (a b : Nat) : Bool :=
  decide (s.ringRegion a = s.ringRegion b) && decide ((s.ringSpan a).1 < (s.ringSpan b).2) &&
  decide ((s.ringSpan b).1 < (s.ringSpan a).2)

/-- Objects of a list that conflict with an earlier one of it. -/
def laterOf (l : List Nat) (meet : Nat → Nat → Bool) : List Nat :=
  l.filter (fun b => l.any (fun a => decide (a < b) && meet a b))

/-- The area 0x03 reasons. -/
def State.checks3 (s : State) : List (Nat × List Nat) :=
  let all := List.range 16
  let here := all.filter s.poolPresent
  [(0x0301, badOf all (s.poolCycle 17 []) Reg.circPoolCfg), (0x0302, s.kindBad),
   (0x0303, badOf here s.poolRangeBad Reg.circPoolCfg), (0x0304, (laterOf here s.poolsMeet).map Reg.circPoolCfg),
   (0x0305, badOf s.pagePools s.ringBad Reg.circPoolCfg), (0x0306, (laterOf s.pagePools s.ringsMeet).map Reg.circPoolCfg)]

/-! ### Area 0x04: the switch core, counters -/

/-- Slice and place in its TM block of a control address in TM_NODE or TM_QUEUE; none elsewhere. -/
def tmPlace (ca : Nat) : Option (Nat × Nat) :=
  let b := caBlock ca
  if 4 ≤ caNode ca ∧ caNode ca < 8 ∧ (b = 0x18 ∨ b = 0x19) ∧ 0x40000 ≤ caOff ca ∧ ¬(0x7C000 ≤ caOff ca ∧ caOff ca < 0x80000)
  then some (2 * (caNode ca - 4) + (b - 0x18), caOff ca) else none

/-- The node that a node or queue names as its parent; none for a port node, and where no such node exists. -/
def tmParent (off parent : Nat) : Option Nat :=
  if 0x80000 ≤ off then (if parent < 8192 then some (0x40000 + 16 * parent) else none)
  else if 0x78000 ≤ off then none
  else if 0x70000 ≤ off then (if parent < 64 then some (0x78000 + 16 * parent) else none)
  else if 0x60000 ≤ off then (if parent < 512 then some (0x70000 + 16 * parent) else none)
  else if parent < 4096 then some (0x60000 + 16 * parent) else none

/-- The place is a port node. -/
def tmIsPort (off : Nat) : Bool := decide (0x78000 ≤ off) && decide (off < 0x7C000)

/-- The enabled queues and nodes: the words 0 that a register list holds with EN set, rising. -/
def tmEnabled (m : SMap Word32) : List (Nat × Nat × Nat) :=
  m.filterMap (fun (x : Nat × Word32) =>
    match tmPlace x.1 with
    | some (sl, off) => if off % 16 = 0 ∧ bit x.2 31 = true then some (x.1, sl, off) else none
    | none => none)

/-- An enabled queue or node whose parent is not enabled (R231). -/
def State.treeBad (s : State) (x : Nat × Nat × Nat) : Bool :=
  !tmIsPort x.2.2 &&
  match tmParent x.2.2 (s.cfgF x.1 12 0) with
  | some p => !s.cfgB (sliceCa 0x18 x.2.1 p) 31
  | none => true

/-- The area 0x04 reasons. -/
def State.checks4 (s : State) : List (Nat × List Nat) :=
  let en := tmEnabled s.dp
  let slices := List.range 8
  [(0x0401, (en.filter s.treeBad).map (fun x => x.1)),
   (0x0402, (en.filter (fun x => !tmIsPort x.2.2 && decide (s.cfgF x.1 23 14 = 0))).map (fun x => x.1)),
   (0x0403, badOf (List.range 256) (fun w => (List.range 3).any (fun d =>
      let x := s.cfg (Reg.coreWred w d)
      decide (bits x 23 12 ≠ 0) && decide (bits x 23 12 ≤ bits x 11 0))) (fun w => Reg.coreWred w 0)),
   (0x0404, slices.flatMap (fun sl => badRegs s.dp (Reg.tmPfcTh sl 0 0) (Reg.tmPfcTh sl 64 0) (fun _ v =>
      decide (bits v 31 16 ≠ 0) && decide (bits v 31 16 ≤ bits v 15 0)))),
   (0x0405, badRegs s.dp (Reg.replGroup 0) (Reg.replGroup 65536) (fun _ v =>
      decide (65536 < bits v 31 16 + bits v 11 0))),
   (0x0406, if s.cfgF Reg.coreCfg 31 30 = 0 then
      badRegs s.dp (Reg.coreSysport 0) (Reg.coreSysport 1024) (fun _ v => bit v 31) else []),
   (0x0407, slices.flatMap (fun sl =>
      let q := s.cfg (Reg.chrSliceQ sl)
      let a := s.cfg (Reg.chrSliceSa sl)
      (if 32768 < bits q 30 16 + bits q 13 0 then [Reg.chrSliceQ sl] else []) ++
      (if 10240 < bits q 13 0 + bits a 13 0 ∨ 32768 < bits a 30 16 + bits a 13 0 then [Reg.chrSliceSa sl] else []))),
   (0x0408, badOf (List.range 1024) (fun t => !thrOk (s.cfg (Reg.chrThr t 0))) (fun t => Reg.chrThr t 0))]

/-! ### Area 0x05: octets and ports (Table 9.5) -/

/-- A reserved HALF code, or WIDE beside one (R271). -/
def modeBad (v : Word32) : Bool :=
  decide (4 < bits v 11 8) || decide (4 < bits v 15 12) || (bit v 31 && decide (bits v 15 8 ≠ 0))

/-- The fabric lanes, rising. -/
def State.fabLanes (s : State) : List Nat := (List.range 512).filter s.laneFabric

/-- The lanes that break R283: with compact framing, every lane past the 32nd and every lane at 425 Gb/s. -/
def State.compactBad (s : State) : List Nat :=
  if (List.range 4).any (fun q => s.cfgB (Reg.fabCtl q) 0) then
    let l := s.fabLanes
    ((List.range l.length).zip l).filterMap (fun x => if 32 ≤ x.1 ∨ s.laneRate x.2 = 2 then some x.2 else none)
  else []

/-- The control address of FAB_LANE_CFG of a lane. -/
def laneCa (l : Nat) : Nat := Reg.fabLaneCfg (laneQuad l) (laneIn l)

/-- The least of two lists that each rise. -/
def leastFirst (a b : List Nat) : List Nat := ((a ++ b).min?).toList

/-- The control address of OCT_PORT_CFG or another register of a port. -/
def portCa (f : Nat → Nat → Nat) (p : Nat) : Nat := f (portOct p) (portLane p)

/-- An enable of a recovered clock set in an octet after one that has it set. -/
def State.rclkBad (s : State) (o : Nat) : Bool :=
  [7, 15].any (fun n => s.cfgB (Reg.octRclk o) n && (List.range o).any (fun o' => s.cfgB (Reg.octRclk o') n))

/-- The area 0x05 reasons. -/
def State.checks5 (s : State) : List (Nat × List Nat) := [
  (0x0501, badOf (List.range 8) (fun sl => decide (s.cfgF (Reg.accFifo sl) 26 16 ≤ s.cfgF (Reg.accFifo sl) 10 0)) Reg.accFifo),
  (0x0502, leastFirst (badOf (List.range 64) (fun o => modeBad (s.cfg (Reg.octMode o))) Reg.octMode) (s.compactBad.map laneCa)),
  (0x0503, badOf s.ports' (fun p => decide (25 < s.portRate p) && decide (s.portCfgF p 27 26 ≠ 0)) (portCa Reg.octPortCfg)),
  (0x0504, badOf s.ports' (fun p => decide (s.maxFrame p < 64)) (portCa Reg.octPortFrame)),
  (0x0505, badOf s.ports' (fun p => decide (s.portCfgF p 17 16 = 3)) (portCa Reg.octPortCfg)),
  (0x0506, badOf (List.range 64) s.rclkBad Reg.octRclk)]

/-! ### Area 0x06: fabric links (Table 10.7) -/

/-- Settings of a quadrant that differ from those of Q0. -/
def State.fabDiff (s : State) (f : Nat → Nat) (q : Nat) : Bool := decide (s.cfg (f q) ≠ s.cfg (f 0))

/-- FAB_SETTINGS of one quadrant. -/
def State.fabSettings (s : State) (q : Nat) : List Nat :=
  badOf [Reg.fabCtl q] (fun _ => s.fabDiff Reg.fabCtl q) id ++ badOf [Reg.fabCredit q] (fun _ => s.fabDiff Reg.fabCredit q) id ++
  badOf [Reg.fabLoss q] (fun _ => s.fabDiff Reg.fabLoss q) id

/-- FAB_VERSION of one quadrant. -/
def State.fabVerBad (s : State) (q : Nat) : Bool :=
  let hi := s.cfgF (Reg.fabCtl q) 19 16
  let lo := s.cfgF (Reg.fabCtl q) 11 8
  decide (hi < lo) || decide (lo < 3) || decide (5 < lo) || decide (hi < 3) || decide (5 < hi)

/-- FAB_MODE: a FABRIC half with MODE 0 names its octet, a DEV_ID above 3 in a mesh CORE_CFG (R274). -/
def State.fabModeBad (s : State) : List Nat :=
  let mode := s.cfgF Reg.coreCfg 31 30
  if mode = 0 then
    badOf (List.range 64) (fun o => halfFabric (s.cfg (Reg.octMode o)) 0 || halfFabric (s.cfg (Reg.octMode o)) 1) Reg.octMode
  else if mode = 2 ∧ 3 < s.devId then [Reg.coreCfg] else []

/-- The area 0x06 reasons. -/
def State.checks6 (s : State) : List (Nat × List Nat) := [
  (0x0601, s.fabModeBad),
  (0x0602, badOf s.fabLanes (fun l => s.cfgB (laneCa l) 31 && decide (s.laneRate l = 3)) laneCa),
  (0x0603, badOf (List.range 4) s.fabVerBad Reg.fabCtl),
  (0x0604, (List.range 4).flatMap s.fabSettings),
  (0x0605, badOf (List.range 4) (fun q => decide (s.cfgF (Reg.fabCredit q) 31 16 = 0) || decide (s.cfgF (Reg.fabCredit q) 15 0 = 0))
    Reg.fabCredit)]

/-! ### Area 0x07: the cipher engine (R320) -/

/-- Bits [hi:lo] of word w of a context are zero. -/
def saZero (c : SaCtx) (w hi lo : Nat) : Bool := decide (saF c w hi lo = 0)

/-- The fields that Table 11.2 does not give for a context's MODE are zero (R306); a field with no mode named is given
for every mode. -/
def saFieldsOk (c : SaCtx) : Bool :=
  let out := !saIn c
  (saEsp c && saIn c || saZero c 0 24 24) && (saEsp c || (saZero c 0 23 23 && saZero c 1 31 22)) &&
  (decide (saMode c = 1) || saZero c 0 22 21) && (saMac c && out || saZero c 0 20 18) && saZero c 1 21 11 &&
  (saMac c || saZero c 3 31 0) && (saMac c || saEsp c || saZero c 2 31 0) && (saXpn c && saMac c || saZero c 4 31 0) &&
  (saXpn c && saMac c || saZero c 5 63 0) && (saXpn c || saEsp c || saZero c 7 31 0) &&
  (out || (saZero c 10 63 0 && saZero c 12 63 0)) &&
  (saXpn c || (saZero c 9 31 0 && saZero c 11 31 0 && saZero c 13 31 0)) && saZero c 14 63 0 &&
  (saEsp c && saIn c || decide (saMap c = 0))

/-- CIPHER_MODE of a context. -/
def saModeBad (c : SaCtx) : Bool :=
  decide (4 < saMode c) || decide (saF c 0 22 21 = 3) || (saXpn c && decide (saMode c = 0)) || !saFieldsOk c

/-- The contexts that a condition refuses. -/
def State.saBad (s : State) (bad : SaCtx → Bool) : List Nat :=
  (s.cipher.ctx.filter (fun x => bad x.2)).map (fun x => sliceIx 0x1A (x.1 / 32768) (x.1 % 32768))

/-- The enabled receive channels of the ports with RX_EN, as (slice, local port, channel). -/
def State.rxChans (s : State) : List (Nat × Nat × Nat) :=
  (List.range 512).flatMap (fun p =>
    let v := s.cfg (Reg.cipPortCfg (p / 64) (p % 64))
    if bit v 31 then ((List.range 4).filter (fun c => bit v c)).map (fun c => (p / 64, p % 64, c)) else [])

/-- The four contexts of a channel (R310). -/
def State.chanCtx (s : State) (x : Nat × Nat × Nat) : List Nat :=
  (List.range 4).map (fun a => (s.cfgF (Reg.cipPortSa x.1 x.2.1) 30 16 + 4 * x.2.2 + a) % 32768)

/-- The ports with TX_EN, as (slice, local port). -/
def State.txPorts (s : State) : List (Nat × Nat) :=
  ((List.range 512).map (fun p => (p / 64, p % 64))).filter (fun x => s.cfgB (Reg.cipPortCfg x.1 x.2) 28)

/-- TX_SA of a port. -/
def State.txSa (s : State) (x : Nat × Nat) : Nat := s.cfgF (Reg.cipPortSa x.1 x.2) 14 0

/-- Whether a slice's context is named by a receive channel or as a TX_SA. -/
def State.saNamed (s : State) (sl i : Nat) : Bool :=
  s.rxChans.any (fun x => decide (x.1 = sl) && (s.chanCtx x).contains i) ||
  s.txPorts.any (fun x => decide (x.1 = sl) && decide (s.txSa x = i))

/-- The area 0x07 reasons. -/
def State.checks7 (s : State) : List (Nat × List Nat) := [
  (0x0701, s.saBad saModeBad),
  (0x0702, s.saBad (fun c => decide (1024 < saWindow c))),
  (0x0703, (s.rxChans.filter (fun x => (s.chanCtx x).any (fun i =>
      let c := s.saCtx x.1 i
      decide (saMode c ≠ 0) && !(saMac c && saIn c)))).map (fun x => Reg.cipRxsc x.1 x.2.1 x.2.2 0)),
  (0x0704, (s.txPorts.filter (fun x =>
      let c := s.saCtx x.1 (s.txSa x)
      !saMac c || saIn c)).map (fun x => Reg.cipPortSa x.1 x.2)),
  (0x0705, (s.cipher.ctx.filter (fun x => decide (saMode x.2 ≠ 0) && !(s.saKey x.2).written &&
      s.saNamed (x.1 / 32768) (x.1 % 32768))).map (fun x => sliceIx 0x1A (x.1 / 32768) (x.1 % 32768)))]

/-! ### Areas 0x08 to 0x0B -/

/-- TIME_CFG (R335). -/
def State.timeBad (s : State) : List Nat :=
  let p := s.cfgF Reg.timeCtl 3 0
  (if p = 0 ∨ 10 < p then [Reg.timeCtl] else []) ++
  badOf (List.range 4) (fun k => bit (s.pinW k 0) 28 && bit (s.pinW k 0) 27 && !s.pinLimits k) (fun k => Reg.evtPin k 0)

/-- HOST_POOL of a host port. -/
def State.hostPoolBad (s : State) (h : Nat) : Bool :=
  let v := s.cfg (Reg.hpCfg h)
  bit v 31 && !(s.poolPresent (bits v 19 16) && decide (s.poolKind (bits v 19 16) = 0))

/-- POWER_REG (R394): the refused slots. -/
def State.slotsBad (s : State) : List Nat :=
  let w := fun r => s.cfg (Reg.powReg r 0)
  let on := (List.range 8).filter (fun r => bit (w r) 31)
  (List.range 8).filter (fun r =>
    (decide (r = 0) && !on.any (fun i => decide (bits (w i) 2 0 = 0))) ||
    (on.contains r && (decide (bits (w r) 2 0 = 7) ||
      on.any (fun i => decide (i < r) && decide (bits (w i) 30 26 = bits (w r) 30 26)))))

/-- THERM_CFG. -/
def State.thermBad (s : State) : Bool := decide (105 < s.cfgF Reg.powTherm 7 0) || decide (s.cfgF Reg.powTherm 15 8 = 0)

/-- Units of 384 KiB of the installed Stacks; none where no port is mapped (R25, R400). -/
def State.stacksUnits (s : State) : Nat :=
  if !(List.range 24).any s.gdMapped then 0 else if s.strapF 7 6 = 1 then 262144 else 131072

/-- STACKS_RANGE of a region. -/
def State.regionBad (s : State) (r : Nat) : Bool :=
  decide (s.regionSize r ≠ 0) && decide (s.stacksUnits < s.regionFirst r + s.regionSize r)

/-- The regions in use. -/
def State.regions (s : State) : List Nat :=
  (List.range 32).filter (fun r => decide (s.regionKind r ≠ 0) && decide (s.regionSize r ≠ 0))

/-- Two regions share a unit. -/
def State.regionsMeet (s : State) (a b : Nat) : Bool :=
  decide (s.regionFirst a < s.regionFirst b + s.regionSize b) && decide (s.regionFirst b < s.regionFirst a + s.regionSize a)

/-- STACKS_SPARE (R205): the spares fall short. The first SPARE region is named, or the first region to be remapped. -/
def State.spareBad (s : State) : List Nat :=
  let spares := s.regions.filter (fun r => decide (s.regionKind r = 5))
  let remap := s.regions.filter (fun r => s.cfgB (Reg.circRegionA r) 28)
  let k := ((List.range 24).filter (fun g => !s.gdMapped g)).length
  if (23 - k) * (spares.map s.regionSize).sum < (k + 1) * (remap.map s.regionSize).sum
  then ((spares ++ remap).take 1).map Reg.circRegionA else []

/-- STACKS_RING: a FREE_RING region of odd SIZE, or with both copies of a stripe on unmapped ports (R204). -/
def State.ringRegionBad (s : State) (r : Nat) : Bool :=
  decide (s.regionKind r = 2) &&
  (decide (s.regionSize r % 2 = 1) || (List.range 12).any (fun m => !s.gdMapped (2 * m) && !s.gdMapped (2 * m + 1)))

/-- STACKS_RATE of a quadrant. -/
def State.rateBad (s : State) (q : Nat) : Bool :=
  let v := s.cfgF (Reg.stkCfg q) 5 0
  decide (v ≠ s.cfgF (Reg.stkCfg 0) 5 0) || decide (v % 2 = 1) || decide (v < 32) || decide (48 < v)

/-- CHRON_CFG (R363). -/
def State.chronBad (s : State) : Bool :=
  let v := s.cfg Reg.chrCfg
  let p := bits v 23 0
  (decide (1 ≤ p) && decide (p ≤ 624)) || (decide (p ≠ 0) && decide (s.chronRecords v = 0))

/-- The reasons of areas 0x08 to 0x0B. -/
def State.checks8 (s : State) : List (Nat × List Nat) := [
  (0x0801, s.timeBad),
  (0x0901, badOf (List.range 2) s.hostPoolBad Reg.hpCfg),
  (0x0902, if s.cfgF Reg.dcpEtype 31 16 = s.cfgF Reg.dcpEtype 15 0 then [Reg.dcpEtype] else []),
  (0x0A01, if s.powFixed = false ∧ s.cfgF Reg.powCtl 10 8 < s.cfgF Reg.powCtl 6 4 then [Reg.powCtl] else []),
  (0x0A02, s.slotsBad.map (fun r => Reg.powReg r 0)),
  (0x0A03, if s.thermBad then [Reg.powTherm] else []),
  (0x0A04, if s.testMode then [Reg.hubStatus] else []),
  (0x0B01, badOf (List.range 32) s.regionBad Reg.circRegionA),
  (0x0B02, (laterOf s.regions s.regionsMeet).map Reg.circRegionA),
  (0x0B03, s.spareBad),
  (0x0B04, badOf s.regions s.ringRegionBad Reg.circRegionA),
  (0x0B05, badOf (List.range 4) s.rateBad Reg.stkCfg),
  (0x0B06, if s.chronBad then [Reg.chrCfg] else [])]

/-! ### The check -/

/-- All reasons in the order in which the check takes them (R404). -/
def State.enableChecks (s : State) : List (Nat × List Nat) :=
  s.checks1 ++ s.checks2 ++ s.checks3 ++ s.checks4 ++ s.checks5 ++ s.checks6 ++ s.checks7 ++ s.checks8

/-- The first refusal: reason code and detail word. -/
def firstCheck : List (Nat × List Nat) → Option (Nat × Nat)
  | [] => none
  | (_, []) :: l => firstCheck l
  | (c, d :: _) :: _ => some (c, d)

/-- The refusal of the enable check; none where it passes. -/
def State.enableRefusal (s : State) : Option (Nat × Nat) := firstCheck s.enableChecks

/-- The refusal of one restarting cluster, held against the running ones (R90). -/
def State.startRefusal (s : State) (k : Nat) : Option (Nat × Nat) :=
  let ref := ((List.range 32).find? (fun j => (s.cluster j).state == .running)).elim (s.cluster k) s.cluster
  firstCheck (s.clusterChecks [k] ref)

/-- The largest declared entry WCET of the clusters that take part (R49). -/
def State.maxWcet (s : State) : Nat :=
  (s.sound.flatMap (fun k => (s.clusterEntries k).map (fun e => e.wcet))).foldl max 0

/-- ALM_BUDGET as the enable check writes it, whatever its outcome (R49). -/
def State.noteBudget (s : State) : State :=
  s.setReg Reg.almBudget (BitVec.ofNat 32 (s.checkU * 65536 + s.maxWcet % 65536))

/-- HUB_CHECK_RESULT and HUB_CHECK_DETAIL after a check (R404); a refusal sets REFUSED. -/
def State.noteCheckResult (s : State) (r : Option (Nat × Nat)) : State :=
  match r with
  | none => (s.setReg Reg.hubCheckResult 1).setReg Reg.hubCheckDetail 0
  | some x =>
    ((s.setReg Reg.hubCheckResult (BitVec.ofNat 32 (x.1 * 65536 + 2))).setReg Reg.hubCheckDetail (BitVec.ofNat 32 x.2)).setEv
      Reg.hubEvents 1

end Sys2Proof.Machine
end

