-- ==== Sys2Proof/Machine/Service.lean ====
section
/-! DEFINITION. Vigil events, the life log, control-channel and ODB errors, the SMBus target and the TAP (R353, R413,
R416, R418, R424). -/

namespace Sys2Proof.Machine

/-- The events of Table 17.5. -/
def vigEvents : List Nat :=
  [0x0001, 0x0002, 0x0003, 0x0010, 0x0011, 0x0012, 0x0020, 0x0021, 0x0022, 0x0023, 0x0030, 0x0031, 0x0032, 0x0033, 0x0034,
   0x0040]

/-- The replace reasons an event raises as the device stands, as a mask (Table 17.2). -/
def State.vigMask (s : State) (event : Nat) : Nat :=
  (vigReason event).elim (if event = 0x0010 ∧ 2 ≤ s.planesDown then 2 else 0) (fun b => 2 ^ b)

/-- The event is a failure cause as the device stands (Table 17.3). -/
def State.vigFails (s : State) (event : Nat) : Bool :=
  decide (event = 0x0033) || (decide (event = 0x0010) && decide (s.core.spray = 0)) || (decide (event = 0x0032) && s.blind)

/-- VIGIL_EVENT (R414, R418). -/
def execVigilEvent (event : BitVec 16) (object : Word32) (dt : Word64) (s : State) : Res :=
  let e := event.toNat
  if s.coreOn = false ∨ vigEvents.contains e = false then .next s
  else .next (s.vigilRaise e object.toNat (s.vigMask e) (s.vigFails e) (nsOf (s.oAt dt)))

/-- LIFE_LOG_BURN (R418): the oldest entry waiting is burnt. -/
def execLifeLogBurn (s : State) : Res :=
  match s.vigil.burning with
  | [] => .next s
  | e :: l => .next { s with vigil := { s.vigil with life := s.vigil.life ++ [e], burning := l } }

/-- CTRL_UECC (R36, R413): an error on a control channel. One that the code corrects is counted and shown; otherwise the transfer is
repeated, and the error counts, and toward ECC_REPEAT. -/
def execCtrlUecc (e : CtrlError) (s : State) : Res :=
  let q := e.quad.val
  if s.boot.nodesReady = false then .next s
  else if e.corrected then .next ((s.bump (Reg.qctlLinkErrCnt q) 1).setEv (Reg.qctlStatus q) 1)
  else
    let s1 := (s.bump (Reg.vigCtrlUncorr q) 1).vigil' 0x0012 q
    let ticks := recentTicks (SMap.find [] s1.vigil.ctrlTick q) s1.now (2 ^ 20)
    let s2 : State := { s1 with vigil := { s1.vigil with ctrlTick := SMap.set [] s1.vigil.ctrlTick q ticks } }
    .next (s2.eccRepeat ticks (16 + q))

/-- A packet holds an ODB cell. -/
def Pkt.holdsCell (p : Pkt) (odb : Nat → Bool) (cell : Nat) : Bool := p.bufs.any (fun b => odb b.pool && decide (b.num = 4 * cell))

/-- ODB_UECC (R412, R416): the frame whose cell is uncorrectable leaves with an inverted FCS. An error that SECDED corrects is counted;
the word is written back as it was. -/
def execOdbUecc (e : CellError) (s : State) : Res :=
  let cell := e.cell
  if s.coreOn = false ∨ 1310720 ≤ cell then .next s
  else if e.corrected then .next (s.bump (Reg.vigOdbEcc 0) 1)
  else
    let s1 := State.mapPkts (fun p =>
      if p.holdsCell (fun i => decide (s.poolKind i < 2)) cell then { p with stomp := true } else p) s
    let s2 := (s1.bump (Reg.vigOdbEcc 1) 1).vigil' 0x0023 cell
    let ticks := recentTicks s2.vigil.odbTick s2.now (2 ^ 20)
    let s3 : State := { s2 with vigil := { s2.vigil with odbTick := ticks } }
    .next (s3.eccRepeat ticks 8)

/-! ### SMBus (R353) -/

/-- DIE_REV: 0x00 for A0, 0x10 for B0. -/
def dieRev : Nat := if Config.isA0 then 0 else 0x10

/-- A word of the SMBus target, low byte first. -/
def smWord (n : Nat) : Option (List Byte) := some (leBytes 2 n)

/-- A sensor's temperature; none where the sensor has failed. -/
def State.smSensor (s : State) (j : Nat) : Option (List Byte) :=
  if s.sensorFailed j then none else smWord (bits (s.reg (Reg.powTemp j)) 15 0)

/-- The answer to a command; none is a NACK. -/
def State.smAnswer (s : State) (c : Nat) (block : Bool) : Option (List Byte) :=
  if block then
    (if c = 0x04 then some (leBytes 4 s.vigil.reasons.toNat)
     else if c = 0x30 then some ((List.range 4).flatMap (fun i => beBytes 4 (Config.fuseId i).toNat))
     else none)
  else if c = 0x00 then smWord 0x5120
  else if c = 0x01 then smWord dieRev
  else if c = 0x02 then smWord s.boot.phase.code
  else if c = 0x03 then smWord s.vigil.state
  else if c = 0x08 then s.hottest.bind (fun t => smWord (BitVec.ofInt 16 t).toNat)
  else if 0x10 ≤ c ∧ c < 0x20 then s.smSensor (c - 0x10)
  else if 0x20 ≤ c ∧ c < 0x26 then s.smSensor (16 + (c - 0x20))
  else none

/-- PEC: CRC-8 with polynomial x^8 + x^2 + x + 1 (PRESUMED, the SMBus standard; log 102). -/
def pecStep (crc : Byte) (b : Byte) : Byte :=
  (List.range 8).foldl (fun (c : Byte) _ => if bit c 7 then (c <<< 1) ^^^ 0x07 else c <<< 1) (crc ^^^ b)

/-- What the target sends for a read: a Block Read begins with its byte count, and a PEC byte follows, over the address bytes, the
command and the data, where the controller clocks one. -/
def smBytes (command : Byte) (block pec : Bool) (bs : List Byte) : List Byte :=
  let l := if block then BitVec.ofNat 8 bs.length :: bs else bs
  if pec then l ++ [([0xBC, command, 0xBD] ++ l).foldl pecStep 0] else l

/-- SMBUS_TRANSACTION (R353): from AON_UP onward; the target changes no state of the device. A transaction that writes beyond the
command byte is answered with NACK. -/
def execSmbusTransaction (command : BitVec 8) (form : SmForm) (s : State) : Res :=
  if s.boot.inReset ∨ s.boot.phase = .coldWait then .next s
  else if form.written ≠ [] then .next (s.emit .smbusNack)
  else match s.smAnswer command.toNat form.block with
    | some bs => .next (s.emit (.smbus (smBytes command form.block form.pec bs)))
    | none => .next (s.emit .smbusNack)

/-! ### The TAP (R424) -/

/-- The public instructions of Table 17.9. -/
def tapPublic : List Nat := [0x00, 0x01, 0x02, 0x04, 0x05, 0x08, 0x09, 0xFF]

/-- The instructions that take the pins from the device. -/
def tapTakesPins (op : Nat) : Bool := [0x00, 0x04, 0x05, 0x08, 0x09].contains op

/-- A port whose pins are taken loses its link: the state it then has is entered at the next boundary (R258). -/
def State.loseLink (s : State) (p : Nat) : State :=
  if s.portSt p ≠ .up then s else if s.downHold p = 0 then s.portDue p .fault else s.portDue p .hold

/-- IDCODE (R424). -/
def idCode : Word32 := if Config.isA0 then 0x05120D47 else 0x15120D47

/-- TAP_INSTRUCTION (R2, R424): the instruction IDCODE gives the part's code. An opcode that is not public acts as BYPASS in service. -/
def execTapInstruction (opcode : BitVec 8) (s : State) : Res :=
  let op := opcode.toNat
  if tapPublic.contains op then
    let s1 : State := { s with vigil := { s.vigil with tap := opcode } }
    let s2 := if tapTakesPins op then (List.range 514).foldl (fun x p => x.loseLink p) s1 else s1
    .next (s2.emit (.tap opcode (if op = 1 then some idCode else none)))
  else if s.testMode && !s.boot.inReset then .refused (.privateTest op)
  else .next ({ s with vigil := { s.vigil with tap := 0xFF } }.emit (.tap 0xFF none))

end Sys2Proof.Machine
end

