-- ==== Sys2Proof/Machine/Startup.lean ====
section
/-! DEFINITION. Reset, the crystal, the clock monitor and the phases up to HOST_UP, the safe stop and the restart from
HALTED (R368 to R372, R396 to R401). -/

namespace Sys2Proof.Machine

/-! ### Reset (R396) -/

/-- The objects whose life-log entries have been burnt. -/
def burntObjects (l : List VigEntry) : List (Nat × Nat) := l.map (fun e => (e.event.toNat, e.object.toNat))

/-- The whole device under RESET_N low. The life log survives; the model's own records go on. -/
def State.underReset (s : State) : State :=
  { State.reset with
    vigil := { Vigil.reset with life := s.vigil.life, seen := burntObjects s.vigil.life }
    tm := { Tm.reset with draws := s.tm.draws }
    out := s.out
    nextId := s.nextId
    retired := s.retired
    free := s.free
    pending := s.pending }

/-- RESET_N_ASSERT (R396). -/
def execResetNAssert (s : State) : Res := .next s.underReset

/-- OSC_WAIT holds a code of Table 16.2 (R369). -/
def oscOk (straps : BitVec 10) : Bool := decide (bits straps 3 0 ≤ 6)

/-- The fused reset values of HP_MAC (R338). -/
def State.fuseMacs (s : State) : State :=
  (List.range 2).foldl (fun x h =>
    let m := Config.hpMac h
    (x.setRegNow (Reg.hpMacLo h) (m.extractLsb' 0 32)).setRegNow (Reg.hpMacHi h) ((m.extractLsb' 32 16).zeroExtend 32)) s

/-- RESET_N_RELEASE (R369, R396): the rising edge latches the straps and starts COLD_WAIT; a refused OSC_WAIT never opens
the start window. -/
def execResetNRelease (straps : BitVec 10) (s : State) : Res :=
  if s.boot.inReset then
    .next { s.fuseMacs with boot := { Boot.reset with inReset := false, straps := straps, windowOpen := oscOk straps } }
  else .next s

/-! ### The crystal (R368 to R370) -/

/-- START_WINDOW_END (R368): the crystal is proven over 4,096 cycles. -/
def execStartWindowEnd (s : State) : Res :=
  if s.boot.windowOpen then .next { s with boot := { s.boot with windowOpen := false, proving := true } } else .next s

/-- XTAL_PROVEN (R368, R397): AON_UP. -/
def execXtalProven (s : State) : Res :=
  if s.boot.proving then .next { s with boot := { s.boot with proving := false, proven := true, phase := .aonUp } } else .next s

/-- XTAL_PROOF_FAIL (R368): the start window begins again. -/
def execXtalProofFail (s : State) : Res :=
  if s.boot.proving then .next { s with boot := { s.boot with proving := false, windowOpen := true } } else .next s

/-- REF_LOST_IN_OSC_START (R370): REFCLK is lost inside the start window, which begins again. -/
def execRefLostInOscStart (s : State) : Res := if s.boot.windowOpen then .next (s.setEv Reg.clkEvents 2) else .next s

/-- AON_UP_END (R397). -/
def execAonUpEnd (s : State) : Res :=
  if s.boot.phase = .aonUp then .next { s with boot := { s.boot with phase := .refCheck } } else .next s

/-! ### The clock monitor (R371, R372) -/

/-- The monitor runs from AON_UP onward. -/
def State.monitored (s : State) : Bool := !s.boot.inReset && decide (s.boot.phase ≠ .coldWait)

/-- A port loses its transmit clock, at the loss itself (R372): it is in FAULT from then on. -/
def State.loseClock (s : State) (p : Nat) : State := if s.portSt p = .disabled then s else State.leaveTo s s p .fault

/-- A loss of REFCLK (R371, R372): the four windows start again; from CORE_UP onward the safe stop begins. -/
def State.refLoss (s : State) : State :=
  let s1 : State := { s with boot := { s.boot with refGood := 0 } }
  if s.coreOn = false ∨ s.boot.stop = some .refLoss then s1
  else
    let s2 := s1.setEv Reg.clkEvents 1
    let s3 := (s2.vigilRaise 0x0034 0 0 false (nsOf (s2.oAt s2.eventDt))).nextFree
    let s4 := (List.range 514).foldl (fun x p => x.loseClock p) s3
    if s4.boot.stop = some .thermal then s4
    else { s4 with boot := { s4.boot with stop := some .refLoss, stopAge := 0 } }

/-- REF_LOST (R372): no edge for two XTAL cycles. -/
def execRefLost (s : State) : Res := if s.monitored then .next s.refLoss else .next s

/-- A window's count lies in range (R371). -/
def edgesOk (n : Nat) : Bool := decide (102380 ≤ n) && decide (n ≤ 102420)

/-- FREF is lost (R371). -/
def State.frefLoss (s : State) : State := { s with boot := { s.boot with frefGood := 0 } }.setEv Reg.clkEvents 4

/-- FREF_LOST (R371). -/
def execFrefLost (s : State) : Res := if s.monitored then .next s.frefLoss else .next s

/-- The core clock starts at K = 8 (R373, R397). -/
def Power.start (p : Power) : Power := { p with k := 8, nextK := 8 }

/-- REF_CHECK has passed: CORE_UP. -/
def State.passRef (s : State) : State :=
  if s.boot.phase = .refCheck ∧ 4 ≤ s.boot.refGood then
    { s with boot := { s.boot with phase := .coreUp }, power := s.power.start }
  else s

/-- REF_WINDOW_END (R371): both clocks are judged over one window; a REFCLK count out of range is a loss. -/
def execRefWindowEnd (refEdges frefEdges : Nat) (s : State) : Res :=
  if s.monitored = false then .next s
  else
    let s1 := s.setReg Reg.clkRefCnt (BitVec.ofNat 32 (refEdges % 2 ^ 17))
    let s2 := if edgesOk refEdges then { s1 with boot := { s1.boot with refGood := min 4 (s1.boot.refGood + 1) } }
      else (s1.setEv Reg.clkEvents 3).refLoss
    let s3 := if edgesOk frefEdges then { s2 with boot := { s2.boot with frefGood := min 4 (s2.boot.frefGood + 1) } }
      else s2.frefLoss
    .next s3.passRef

/-! ### CORE_UP to HOST_UP (R24, R397, R400) -/

/-- CORE_UP_DONE (R397): the node controllers run, and every memory port starts to train. -/
def execCoreUpDone (s : State) : Res :=
  if s.boot.phase ≠ .coreUp then .next s
  else
    let s1 : State := { s with boot := { s.boot with phase := .memTrain, nodesReady := true } }
    .next ((List.range 24).foldl (fun x g => x.setGd g 1) s1)

/-- The outcome of a port's training: a reserved GD_DENSITY code is a mismatch everywhere (R400). -/
def State.trainOutcome (s : State) (r : BitVec 8) : Nat := if 2 ≤ s.strapF 7 6 then 7 else r.toNat

/-- MEM_TRAIN_DONE (R400): every port has an outcome; those that did not pass are unmapped. -/
def execMemTrainDone (results : List (BitVec 8)) (s : State) : Res :=
  if s.boot.phase ≠ .memTrain then .next s
  else
    let s1 := (List.range 24).foldl (fun x g => x.trainPort g (x.trainOutcome (results.getD g 6))) s
    .next { s1 with boot := { s1.boot with phase := .hostUp } }

/-- Memory ports that passed training (HUB_STATUS.MEM_MAPPED). -/
def State.memPassed (s : State) : Nat :=
  ((List.range 24).filter (fun g => decide (bits (s.reg (Reg.gdStatus g)) 15 8 = 1))).length

/-! ### The end of a safe stop, and the restart (R372, R389, R401) -/

/-- After a thermal shutdown the SerDes and GDDR PHYs are powered down (R389): no port, lane or memory port is in any other state
than after reset, and what is known of the partner of a lane is lost. -/
def State.physOff (s : State) : State :=
  let s1 := (List.range 24).foldl (fun x g => x.setGd g 0) s
  { s1 with
    ports := SMap.mapV Port.reset (fun _ => Port.reset) s1.ports
    fabric := { s1.fabric with lanes := [] }
    eyes := []
    rclkA := Rclk.reset
    rclkB := Rclk.reset
    dcp := { s1.dcp with hp0 := HostPort.reset, hp1 := HostPort.reset } }

/-- Everything on its way through the device is gone: packets, runs, bursts and posted writes. Ports, planes and lanes
keep their states. -/
def State.clearFlow (s : State) : State :=
  { s with
    threads := []
    halted := []
    slices := []
    rx := []
    pools := []
    freeChk := []
    gddr := { s.gddr with posts := [], paused := false }
    core := { s.core with
      planes := SMap.mapV Plane.reset (fun x => { x with q := [] }) s.core.planes
      seqs := []
      ctx := []
      sprayJ := []
      held := []
      transit := []
      asm := []
      waitHand := [] }
    tm := { Tm.reset with
      draws := s.tm.draws
      shapers := s.tm.shapers
      meters := s.tm.meters
      meterNew := s.tm.meterNew
      mirSeen := s.tm.mirSeen }
    ports := SMap.mapV Port.reset (fun x => { x with toCipher := [], wire := [] }) s.ports
    cipher := { s.cipher with icv := [] } }

/-- SAFE_STOP_END (R372, R389): K has reached 8, the core clock stops, and what the device held is lost. -/
def execSafeStopEnd (s : State) : Res :=
  match s.boot.stop with
  | none => .next s
  | some c =>
    if s.power.k ≤ 8 ∧ 2 ≤ s.boot.stopAge then
      let s1 := if c = .thermal then s.clearFlow.physOff else s.clearFlow
      .next { s1 with
        boot := { s1.boot with phase := .halted, stop := none, haltedBy := some c, nodesReady := false }
        power := { s1.power with k := 0, nextK := 0, trans := none }
        alm := { s1.alm with grant := 0, next := 0 }
        dcp := { s1.dcp with waiting := [], accepted := [], resps := [], check := none } }
    else .next s

/-- The AON-held registers: CLK_EVENTS and the monitor's and the sensors' own (R367, R401). -/
def aonRegs : List Nat := [Reg.clkEvents, Reg.clkRefCnt] ++ (List.range 22).map Reg.powTemp

/-- HALTED_RESTART (R401): REFCLK has passed four windows, and the device re-enters CORE_UP with every part that is not
AON as after reset. -/
def execHaltedRestart (s : State) : Res :=
  if s.boot.phase = .halted ∧ s.boot.haltedBy = some .refLoss ∧ 4 ≤ s.boot.refGood then
    let r := s.underReset
    let s1 := aonRegs.foldl (fun x ca => x.setReg ca (s.reg ca)) r
    .next { s1.fuseMacs with
      boot := { Boot.reset with
        inReset := false
        phase := .coreUp
        straps := s.boot.straps
        proven := s.boot.proven
        refGood := s.boot.refGood
        frefGood := s.boot.frefGood }
      power := { Power.reset.start with hot := s.power.hot, hotDue := s.power.hotDue }
      vigil := { Vigil.reset with
        state := s.vigil.state
        reasons := s.vigil.reasons
        replace := s.vigil.replace
        life := s.vigil.life
        seen := burntObjects s.vigil.life
        tap := s.vigil.tap } }
  else .next s

end Sys2Proof.Machine
end

