-- ==== Sys2Proof/Machine/RegView.lean ====
section
/-! DEFINITION. What a read of a register returns (R12, R14, R15): the registers whose value the device computes, block by
block, over the stored ones. -/

namespace Sys2Proof.Machine

/-- A register word from its fields: least significant bit and value of each. -/
def packW (l : List (Nat × Nat)) : Word32 := BitVec.ofNat 32 (l.foldl (fun a x => a + x.2 * 2 ^ x.1) 0)

/-- One word of a 64-bit value: the lower where h is 0. -/
def half64 (v : BitVec 64) (h : Nat) : Word32 := v.extractLsb' (32 * (h % 2)) 32

/-- Index of an array register: offset, base, stride. -/
def ixOf (off base st : Nat) : Nat := (off - base) / st

/-! ### Hub blocks -/

/-- HUB. -/
def State.hubView (s : State) (off : Nat) : Option Word32 :=
  match off with
  | 0x0 => some (packW [(16, 0x5120), (8, dieRev)])
  | 0x4 => some (packW [(16, s.memPassed), (8, b2n s.testMode), (0, s.boot.phase.code)])
  | 0x8 => some (s.boot.straps.zeroExtend 32)
  | 0x20 => some (Config.fuseId 0)
  | 0x24 => some (Config.fuseId 1)
  | 0x28 => some (Config.fuseId 2)
  | 0x2C => some (Config.fuseId 3)
  | _ => none

/-- A session. -/
def State.session (s : State) (i : Nat) : Session := SMap.find Session.closed s.dcp.sessions i

/-- Replace a session. -/
def State.setSession (s : State) (i : Nat) (x : Session) : State :=
  { s with dcp := { s.dcp with sessions := SMap.set Session.closed s.dcp.sessions i x } }

/-- ALERT_N is to be driven low (R352). -/
def State.alertDue (s : State) : Bool :=
  !s.dcp.notices.isEmpty || decide ((s.dcp.sentLog.getLast?).elim 0 (fun n => n.num) ≠ s.reg Reg.dcpNoticeAck)

/-- DCP. -/
def State.dcpView (s : State) (off : Nat) : Option Word32 :=
  let d := s.dcp
  match off with
  | 0x0 =>
    let opened := ((List.range 16).map (fun i => b2n (s.session i).isOpen * 2 ^ i)).sum
    some (packW [(31, b2n d.warden.isSome), (16, d.warden.getD 0), (0, opened)])
  | 0x4 => some d.epoch
  | 0x1C => some ((d.sentLog.getLast?).elim 0 (fun n => n.num))
  | 0x24 => some (packW [(31, b2n (d.alert || s.alertDue)), (0, d.notices.length)])
  | _ => none

/-- The code of a port state (OCT_PORT_STATUS.STATE). -/
def PortState.code : PortState → Nat
  | .disabled => 0 | .an => 1 | .training => 2 | .aligning => 3 | .up => 4 | .hold => 5 | .fault => 6

/-- A host port is live: UP, and a DCP frame within the last KEEPALIVE_TICKS ticks (R340); 0 leaves UP alone. -/
def State.hpLive (s : State) (i : Nat) : Bool :=
  let k := s.cfgF Reg.dcpKeepalive 15 0
  s.portSt (512 + i) == .up &&
    (decide (k = 0) || (match (s.hp i).lastDcp with
      | some t => decide (s.now < t + k)
      | none => false))

/-- HP0, HP1. -/
def State.hpView (s : State) (i off : Nat) : Option Word32 :=
  match off with
  | 0x0 => some (setBits (s.reg (Reg.hpCfg i)) 1 0 (s.strapF 5 4))
  | 0x4 => some (packW [(29, (s.portSt (512 + i)).code), (1, b2n (s.hpLive i)), (0, b2n (s.dcp.active == i))])
  | _ => none

/-- ALMANAC. -/
def State.almView (s : State) (off : Nat) : Option Word32 :=
  match off with
  | 0x4 => some (packW [(2, b2n (s.droopIn 0)), (1, b2n s.alm.syncLost), (0, b2n s.synced)])
  | 0x8 => some (s.alm.tick.extractLsb' 0 32)
  | 0xC => some (packW [(0, s.now / 2 ^ 32)])
  | 0x1C => some (packW [(16, cyclesOf s.power.nextK), (0, cyclesOf s.power.k)])
  | 0x20 => some (packW [(28, s.grantCause), (8, s.grantTarget), (0, s.alm.grant)])
  | _ => none

/-- Word w of window i of the transmit timestamp queue. -/
def State.tsqView (s : State) (i w : Nat) : Word32 := (s.time.tsq[i]?).elim 0 (fun e => e.words.getD w 0)

/-- TIME. The values are those of the instant of the read. -/
def State.timeView (s : State) (off : Nat) : Option Word32 :=
  if off < 0x80 then
    let d := off / 0x40
    match off % 0x40 with
    | 0x0 => some (half64 (s.dom d) 0)
    | 0x4 => some (half64 (s.dom d) 1)
    | 0x20 => some (BitVec.ofInt 32 (s.domA d))
    | 0x24 => some (BitVec.ofInt 32 (s.domI d))
    | _ => none
  else if 0x400 ≤ off ∧ off < 0x800 then some (s.tsqView (ixOf off 0x400 16) (off % 16 / 4))
  else match off with
    | 0x104 => some (packW [(31, b2n s.time.slew), (0, s.time.active)])
    | 0x108 => some (half64 s.time.diff 0)
    | 0x10C => some (half64 s.time.diff 1)
    | 0x110 => some (half64 s.oNow 0)
    | 0x114 => some (half64 s.oNow 1)
    | 0x118 => some (half64 s.time.j 0)
    | 0x11C => some (half64 s.time.j 1)
    | 0x200 => some (s.reg Reg.tsqStatus ||| packW [(0, s.time.tsq.length)])
    | _ => none

/-- POWER. OP_TARGET reads 0 until the sequencer acts. -/
def State.powView (s : State) (off : Nat) : Option Word32 :=
  let p := s.power
  if 0x240 ≤ off ∧ off < 0x260 then some ((Config.opVoltage (ixOf off 0x240 4)).zeroExtend 32)
  else if off = 0x4 then
    some (packW [(29, p.op), (26, if p.coreSlotSeen then s.opTarget else 0), (25, b2n p.trans.isSome), (24, b2n p.stepHeld),
      (0, min p.powerW 65535)])
  else none

/-- CLOCKS. -/
def State.clkView (s : State) (off : Nat) : Option Word32 :=
  if off = 0x0 then
    some (packW [(24, s.strapF 3 0), (16, s.power.k), (3, b2n (decide (s.boot.refGood < 4))), (2, b2n s.boot.proven),
      (1, b2n (decide (4 ≤ s.boot.frefGood))), (0, b2n (decide (4 ≤ s.boot.refGood)))])
  else none

/-- VIGIL. -/
def State.vigView (s : State) (off : Nat) : Option Word32 :=
  let v := s.vigil
  if 0x20 ≤ off ∧ off < 0x40 then some (packW [(0, 256 - (s.wing (ixOf off 0x20 4)).repaired)])
  else match off with
    | 0x0 => some (packW [(2, b2n v.replace), (0, v.state)])
    | 0x4 => some (v.reasons.zeroExtend 32)
    | 0x1C => some (packW [(16, lifeBurnt + v.life.length), (0, v.log.length)])
    | _ => none

/-- The value of a threshold counter inside a tick: what the tick has added is a FREE VALUE (log 56). -/
def State.thrSeen (s : State) (t : Nat) : Word64 :=
  match s.occupancy (s.cfg (Reg.chrThr t 0)) with
  | none => s.thrVal t
  | some (_, hi) =>
    if hi ≤ (s.cfg (Reg.chrThr t 1)).toNat then s.thrVal t
    else s.thrVal t + BitVec.ofNat 64 ((Config.freeWord s.free).toNat % (s.coreCycles + 1))

/-- Entry i of the counter window (CHR_WIN). -/
def State.winEntry (s : State) (i : Nat) : Word64 :=
  let w := s.reg Reg.chrWin
  let n := 16384 * bits w 18 14 + i
  if bit w 31 then (if n < 131072 then SMap.find 0 s.ctrs.hist n else 0) else s.ctrRead n

/-- CHRONICLE. -/
def State.chrView (s : State) (off : Nat) : Option Word32 :=
  if 0x1000 ≤ off ∧ off < 0x5000 then
    (if off % 16 < 8 then none else some (half64 (s.thrSeen (ixOf off 0x1000 16)) (off % 8 / 4)))
  else if 0x20000 ≤ off ∧ off < 0x40000 then some (half64 (s.winEntry (ixOf off 0x20000 8)) (off % 8 / 4))
  else if off = 0x4 then some (packW [(31, b2n s.ctrs.snap.isSome), (0, s.chronRecords (s.cfg Reg.chrCfg))])
  else none

/-- KEYSTORE. -/
def State.keyView (s : State) (off : Nat) : Option Word32 :=
  if off = 0x4 then some (packW [(31, b2n (s.keySlot s.slotSel).written)]) else none

/-- CIRCULATION. -/
def State.circView (s : State) (off : Nat) : Option Word32 :=
  if 0x100 ≤ off ∧ off < 0x500 ∧ off % 0x40 = 0x10 then some (packW [(0, s.poolFree (ixOf off 0x100 0x40))]) else none

/-- REPLICATION. -/
def State.replView (s : State) (off : Nat) : Option Word32 :=
  if off = 0x4 then some (packW [(0, s.tm.residue.length)]) else none

/-- CORE. -/
def State.coreView (s : State) (off : Nat) : Option Word32 :=
  if off = 0xC then some (packW [(16, s.sprayList.length), (0, s.core.spray.toNat)]) else none

/-- A register of the hub node that the device computes. -/
def State.viewHub (s : State) (block off : Nat) : Option Word32 :=
  match block with
  | 0x0 => s.hubView off
  | 0x1 => s.dcpView off
  | 0x2 => s.hpView 0 off
  | 0x3 => s.hpView 1 off
  | 0x4 => s.almView off
  | 0x5 => s.timeView off
  | 0x6 => s.powView off
  | 0x7 => s.clkView off
  | 0x8 => s.vigView off
  | 0x9 => s.chrView off
  | 0xA => s.keyView off
  | 0xB => s.circView off
  | 0xC => s.replView off
  | 0xE => s.coreView off
  | _ => none

/-! ### Quadrant blocks -/

/-- A range of Table 1.4: lower or upper Stacks, a wing, a program store, the ODB debug window. -/
inductive BulkKind where
  | stacks (upper : Bool) | wing (w : Nat) | store (k : Nat) | odb
  deriving DecidableEq, Repr

/-- The range an address lies in, and the end of that range. -/
def bulkRange (a : Nat) : Option (BulkKind × Nat) :=
  if a < 0x000C00000000 then some (.stacks false, 0x000C00000000)
  else if a < 0x001800000000 then some (.stacks true, 0x001800000000)
  else if 0x800000000000 ≤ a ∧ a < 0x800800000000 then
    let w := (a - 0x800000000000) / 0x100000000
    if a < wingAddr w 0x4000000 then some (.wing w, wingAddr w 0x4000000) else none
  else if 0x900000000000 ≤ a ∧ a < 0x900020000000 then
    let k := (a - 0x900000000000) / 0x1000000
    let base := 0x900000000000 + k * 0x1000000
    if a < base + 0x20000 then some (.store k, base + 0x20000) else none
  else if 0xB00000000000 ≤ a ∧ a < 0xB00014000000 then some (.odb, 0xB00014000000)
  else none

/-- A number in a payload. -/
def payNat (p : List Byte) (o n : Nat) : Nat := beNat (slice0 p o n)

/-- The ordering node of an operation: a register operation, and a bulk transfer, has one (R31). -/
def DcpOp.node (o : DcpOp) : Option Nat :=
  if 2 ≤ o.opcode ∧ o.opcode ≤ 4 then some (caNode (payNat o.payload 0 4))
  else if o.opcode = 5 ∨ o.opcode = 6 then
    match bulkRange (payNat o.payload 0 8) with
    | some (.wing w, _) => some (4 + w / 2)
    | some (.store k, _) => some (4 + k / 8)
    | _ => some 0
  else none

/-- QCTL: PENDING counts the operations for the node that are held (DEDUCED, log 59). -/
def State.qctlView (s : State) (q off : Nat) : Option Word32 :=
  match off with
  | 0x0 => some (packW [(16, 0x5120), (8, dieRev), (0, q)])
  | 0x4 =>
    let n := (s.dcp.accepted.filter (fun o => o.node == some (4 + q))).length
    some (setBits (setBits (s.reg (Reg.qctlStatus q)) 0 0 (b2n s.boot.nodesReady)) 15 8 (min 255 n))
  | _ => none

/-- The code of a cluster state. -/
def ClState.code : ClState → Nat
  | .empty => 0 | .stopped => 1 | .running => 2 | .failed => 3 | .checking => 4

/-- SCRIBES of a slice. -/
def State.scrView (s : State) (sl off : Nat) : Option Word32 :=
  if off < 0x100 ∧ off % 0x40 = 0 then
    let c := s.cluster (4 * sl + off / 0x40)
    some (packW [(16, 4 - c.sparesOut), (8, 64 - c.noPhys.length), (0, c.state.code)])
  else none

/-- The entry that PS_ENTRY_SEL of a cluster selects. -/
def State.entrySel (s : State) (sl j : Nat) : Option Entry :=
  ((s.cluster (4 * sl + j)).prog).bind (fun p =>
    p.entries.find? (fun e => decide (e.index = bits (s.reg (Reg.psEntrySel sl j)) 5 0)))

/-- PROGSTORE of a slice. -/
def State.psView (s : State) (sl off : Nat) : Option Word32 :=
  if off < 0x100 ∧ off % 0x40 = 0x14 then
    some ((s.entrySel sl (off / 0x40)).elim 0 (fun e => packW [(16, e.kind), (0, e.start)]))
  else if off < 0x100 ∧ off % 0x40 = 0x18 then
    some ((s.entrySel sl (off / 0x40)).elim 0 (fun e => packW [(16, e.computed), (0, e.wcet)]))
  else none

/-- ACCESSION of a slice. -/
def State.accView (s : State) (sl off : Nat) : Option Word32 :=
  if off = 0x4 then some (packW [(31, b2n (s.slice sl).xoff), (0, fifoSum (s.slice sl).fifo)]) else none

/-- CATALOGUE of a wing. -/
def State.catView (s : State) (w off : Nat) : Option Word32 :=
  let x := s.wing w
  match off with
  | 0x4 => some (packW [(31, b2n x.sweepLate), (18, x.retry.length), (0, x.learnQ.length)])
  | 0x8 => some (packW [(0, x.locks.length)])
  | _ => none

/-- STACKS of a quadrant. -/
def State.stkView (s : State) (q off : Nat) : Option Word32 :=
  match off with
  | 0x0 => some (s.reg (Reg.stkCfg q) ||| packW [(8, b2n (decide (s.strapF 7 6 = 1)))])
  | 0x8 => some (packW [(0, ((List.range 6).map (fun i => b2n (s.gdMapped (6 * q + i)) * 2 ^ i)).sum)])
  | _ => none

/-- TM of a slice. -/
def State.tmView (s : State) (sl off : Nat) : Option Word32 :=
  if 0x7D000 ≤ off ∧ off < 0x7D800 then
    some (packW [(0, s.pfcCells (64 * sl + ixOf off 0x7D000 0x20) (off % 0x20 / 4))])
  else if 0x80000 ≤ off ∧ off % 16 = 12 then some (packW [(0, (s.queue (32768 * sl + ixOf off 0x80000 16)).depth)])
  else none

/-- PLANE. -/
def State.plView (s : State) (p off : Nat) : Option Word32 :=
  if off = 0x4 then some (packW [(8, (s.plane p).cause), (0, (s.plane p).state)]) else none

/-- Receive lock of a lane of an octet: held in UP, TESTING and IN_SERVICE, absent in DISABLED, and a FREE VALUE
otherwise (the manual does not say when a lane gains lock). -/
def State.laneLock (s : State) (o l : Nat) : Bool :=
  let guess := bit (Config.freeWord s.free) l
  if s.laneFabric (8 * o + l) then
    match (s.lane (8 * o + l)).state with
    | .disabled => false
    | .testing => true
    | .inService => true
    | _ => guess
  else match s.laneOwner o l with
    | none => false
    | some p =>
      match (s.port p).state with
      | .disabled => false
      | .up => true
      | _ => guess

/-- The status of a port (OCT_PORT_STATUS). -/
def State.portStatus (s : State) (p : Nat) : Word32 :=
  let x := s.port p
  packW [(29, x.state.code), (28, b2n x.remoteF), (27, b2n x.localF), (8, x.sent.toNat), (0, x.rxPaused.toNat)]

/-- OCTET. The per-port registers of a lane that begins no port read as zero (R252). -/
def State.octView (s : State) (o off : Nat) : Option Word32 :=
  if 0x100 ≤ off ∧ off < 0x300 then
    let p := 8 * o + ixOf off 0x100 0x40
    if s.portNamed p = false then some 0
    else if off % 0x40 = 0xC then some (s.portStatus p)
    else none
  else if 0x400 ≤ off ∧ off < 0x500 ∧ off % 0x20 = 4 then
    let l := ixOf off 0x400 0x20
    some (setBits (s.reg (Reg.octLaneStatus o l)) 31 31 (b2n (s.laneLock o l)))
  else match off with
    | 0x4 =>
      some (packW [(8, ((List.range 8).map (fun l => b2n (s.laneLock o l) * 2 ^ l)).sum),
        (0, ((List.range 8).map (fun i =>
          b2n (s.portExists (8 * o + i) && (s.port (8 * o + i)).state == .up) * 2 ^ i)).sum)])
    | 0x1C => some (packW [(30, (s.eye o).state), (16, (s.eye o).cause), (0, (s.eye o).points)])
    | _ => none

/-- The code of a fabric lane state. -/
def LaneState.code : LaneState → Nat
  | .disabled => 0 | .training => 1 | .aligning => 2 | .testing => 3 | .inService => 4 | .down => 5

/-- FABRIC. The per-lane registers of a lane outside a FABRIC half read as zero. -/
def State.fabView (s : State) (q off : Nat) : Option Word32 :=
  if off < 0x100 then none
  else
    let l := 128 * q + ixOf off 0x100 0x40
    if s.laneNamed l = false then some 0
    else
      let x := s.lane l
      match off % 0x40 with
      | 0x8 => some (packW [(29, x.state.code), (26, x.ver), (22, x.cause), (21, b2n (decide (x.last16.length = 16))),
          (16, x.frameChk), (15, b2n x.partFe), (9, x.partDev), (0, x.partLane)])
      | 0xC => some (x.rtt.zeroExtend 32)
      | 0x20 => some (half64 x.reach 0)
      | 0x24 => some (half64 x.reach 1)
      | 0x28 => some (packW [(1, b2n x.partReady), (0, b2n x.inSpray)])
      | _ => none

/-- A register of quadrant q that the device computes. -/
def State.viewQuad (s : State) (q block off : Nat) : Option Word32 :=
  if block = 0 then s.qctlView q off
  else if block < 0x12 then s.accView (2 * q + block % 2) off
  else if block < 0x14 then s.scrView (2 * q + block % 2) off
  else if block < 0x16 then s.psView (2 * q + block % 2) off
  else if block < 0x18 then s.catView (2 * q + block % 2) off
  else if block < 0x1A then s.tmView (2 * q + block % 2) off
  else if block < 0x20 then none
  else if block < 0x30 then s.octView (16 * q + (block - 0x20)) off
  else if block < 0x34 then s.plView (4 * q + (block - 0x30)) off
  else if block = 0x3E then s.stkView q off
  else if block = 0x3F then s.fabView q off
  else none

/-- The value a register shows; 0 at an unassigned offset (R14). -/
def State.regView (s : State) (ca : Nat) : Word32 :=
  if (regRow ca).isNone then 0
  else
    ((if caNode ca = 0 then s.viewHub (caBlock ca) (caOff ca) else s.viewQuad (caNode ca - 4) (caBlock ca) (caOff ca)).getD
      (s.reg ca))

end Sys2Proof.Machine
end

