-- ==== Sys2Proof/Machine/Status.lean ====
section
/-! DEFINITION. The status codes of Table 13.3 (R350). -/

namespace Sys2Proof.Machine.Nak

def badVersion : Nat := 0x0001
def badOpcode : Nat := 0x0002
def badLength : Nat := 0x0003
def lenZero : Nat := 0x0004
def badAlign : Nat := 0x0005
def badAddress : Nat := 0x0006
def nodeNotReady : Nat := 0x0007
def noSession : Nat := 0x0008
def notWarden : Nat := 0x0009
def staleEpoch : Nat := 0x000A
def wardenHeld : Nat := 0x000B
def notGranted : Nat := 0x000C
def seqOld : Nat := 0x000D
def busy : Nat := 0x000E
def badState : Nat := 0x000F
def configLocked : Nat := 0x0010
def badValue : Nat := 0x0011
def fenceTimeout : Nat := 0x0012
def checkRefused : Nat := 0x0013
def lockRange : Nat := 0x0014
def bankActive : Nat := 0x0015
def dirCheck : Nat := 0x0016
def stacksReadErr : Nat := 0x0017
def stacksUnmapped : Nat := 0x0018
def imagePathOnly : Nat := 0x0019
def clusterRunning : Nat := 0x001A
def imageSeq : Nat := 0x001B
def imageMagic : Nat := 0x0020
def imageFormat : Nat := 0x0021
def imageCrc : Nat := 0x0022
def imageCodexMin : Nat := 0x0023
def imageCaps : Nat := 0x0024
def imageNanoword : Nat := 0x0025
def imageEntry : Nat := 0x0026
def imageBranch : Nat := 0x0027
def imageLoop : Nat := 0x0028
def imageFalloff : Nat := 0x0029
def imageWcet : Nat := 0x002A
def imageCommitDepth : Nat := 0x002B

end Sys2Proof.Machine.Nak
end

