-- ==== Sys2Proof/Machine/HostRegs.lean ====
section
/-! DEFINITION. Register operations of the host: which are refused, what a read clears and latches, and what a write does
in each block (R11 to R16, R20 to R24, and the write rules of the owning chapters). -/

namespace Sys2Proof.Machine

/-! ### Access -/

/-- A node controller answers: the hub from CORE_UP onward, a quadrant while READY reads 1 (R24). -/
def State.nodeReady (s : State) (node : Nat) : Bool := if node = 0 then s.coreOn else s.boot.nodesReady

/-- Why a register operation is refused before it begins (R14, R20, R22, R24, R393); 0 where it is not. -/
def State.regRefusal (s : State) (ca : Nat) : Nat :=
  if ca % 4 ≠ 0 ∨ blockRows ca = none then Nak.badAddress
  else if s.nodeReady (caNode ca) = false then Nak.nodeNotReady
  else if s.gated (caNode ca) (caBlock ca) then Nak.badState
  else 0

/-! ### Reads -/

/-- A counter of an octet whose value the command level does not fix: codewords and symbols corrected or lost. -/
def octFree (ca : Nat) : Bool :=
  decide (4 ≤ caNode ca) && decide (0x20 ≤ caBlock ca) && decide (caBlock ca < 0x30) && decide (0x100 ≤ caOff ca) &&
  decide (caOff ca < 0x300) && [0x10, 0x14, 0x18].contains (caOff ca % 0x40)

/-- The state at the instant of a read: how many REFCLK edges of the tick have passed is a FREE VALUE (log 58). Only the
values of TIME move inside a tick. -/
def State.atRead (s : State) (ca : Nat) : State :=
  if caNode ca = 0 ∧ caBlock ca = 5 then s.timeStep ((Config.freeWord s.free).toNat % (max 1 s.tickEdges.toNat)) else s

/-- The value a read finds, apart from shadows. -/
def State.seenReg (s : State) (ca : Nat) : Word32 :=
  if octFree ca && decide (s.regView ca = s.reg ca) && s.portNamed (8 * (16 * (caNode ca - 4) + (caBlock ca - 0x20)) +
      ixOf (caOff ca) 0x100 0x40) then (Config.freeWord s.free).setWidth 32
  else (s.atRead ca).regView ca

/-- What a read clears: RC fields. CIRC_POOL_LOW restarts from FREE (Table 0.2). -/
def State.readClears (s : State) (ca : Nat) (row : RegRow) : State :=
  if row.rc = 0 then s
  else if caNode ca = 0 ∧ caBlock ca = 0xB ∧ 0x100 ≤ caOff ca ∧ caOff ca < 0x500 ∧ caOff ca % 0x40 = 0x14 then
    s.setReg ca (BitVec.ofNat 32 (s.poolFree (ixOf (caOff ca) 0x100 0x40)))
  else s.setReg ca (s.reg ca &&& ~~~row.rc)

/-- The shadow that a session holds of an upper word (R15). -/
def Session.shadowOf (x : Session) (ca : Nat) : Option Word32 := (x.shadow.find? (fun y => decide (y.1 = ca))).map (fun y => y.2)

/-- A read by a session: the value, and the state after it (R12, R14, R15). The read of the lowest word of a wide value
latches its upper word. -/
def State.readReg (s : State) (ses ca : Nat) : State × Word32 :=
  match regRow ca with
  | none => (s, 0)
  | some row =>
    let x := s.session ses
    let v := (x.shadowOf ca).getD (s.seenReg ca)
    let s1 := if row.wide then
        s.setSession ses { x with
          shadow := x.shadow.filter (fun y => decide (y.1 ≠ ca + 4)) ++ [(ca + 4, (s.atRead ca).regView (ca + 4))] }
      else s
    ((s1.readClears ca row).nextFree, v)

/-- The read touches a counter: a register with an RC field, a threshold counter, or the counter window (R346). -/
def touchesCounter (ca : Nat) : Bool :=
  match regRow ca with
  | none => false
  | some row =>
    decide (row.rc ≠ 0) ||
    (decide (caNode ca = 0) && decide (caBlock ca = 0x9) &&
      (decide (0x20000 ≤ caOff ca) ||
        (decide (0x1000 ≤ caOff ca) && decide (caOff ca < 0x5000) && decide (8 ≤ caOff ca % 16))))

/-! ### Writes -/

/-- A write by the access codes alone: RW fields are set, W1C bits cleared; the lowest word of a wide RW value is held
until its upper word is written, and the word that the last write of the upper one completed is kept beside it (R12, R15). -/
def State.plainWrite (s : State) (ca : Nat) (v : Word32) : State :=
  match regRow ca with
  | none => s
  | some row =>
    let s1 := s.setReg ca (((s.reg ca &&& ~~~row.rw) ||| (v &&& row.rw)) &&& ~~~(v &&& row.w1c))
    if row.wide && decide (row.rw ≠ 0) then s1.holdWide ca (s.reg ca) else s1.freeWide ca

/-- A write that may be refused. -/
def State.orNak (s : State) (r : Option State) (code : Nat) : State × Nat :=
  match r with
  | some s1 => (s1, 0)
  | none => (s, code)

/-- A plain write, refused with CONFIG_LOCKED under a condition. -/
def State.lockedIf (s : State) (c : Bool) (ca : Nat) (v : Word32) : State × Nat :=
  if c then (s, Nak.configLocked) else (s.plainWrite ca v, 0)

/-- A write of DCP_HOSTPORT: ACTIVE switches at the next boundary (R340). -/
def State.hostportWrite (s : State) (v : Word32) : State :=
  let s1 := s.plainWrite Reg.dcpHostport v
  { s1 with dcp := { s1.dcp with activeTo := some (b2n (bit v 0)) } }

/-- ALERT_N goes low as soon as a condition holds (R352). -/
def State.latchAlert (s : State) : State := { s with dcp := { s.dcp with alert := s.dcp.alert || s.alertDue } }

/-- A write of DCP_NOTICE_ACK (R352): ALERT_N is released at the next boundary after its conditions clear. -/
def State.noticeAck (s : State) (v : Word32) : State := (s.latchAlert.plainWrite Reg.dcpNoticeAck v).latchAlert

/-- TIME. -/
def State.timeWrite (s : State) (off ca : Nat) (v : Word32) : State × Nat :=
  if off = 0x1C ∨ off = 0x5C then (s.ofsWrite (off / 0x40) v, 0)
  else if off = 0x100 then (s.timeCtlWrite v, 0)
  else if off = 0x204 then ({ s with time := { s.time with tsq := s.time.tsq.drop (bits v 6 0) } }, 0)
  else if 0x800 ≤ off ∧ off < 0xA00 ∧ off % 0x20 = 0 then s.orNak (s.pinTo (ixOf off 0x800 0x20) v) Nak.badValue
  else (s.plainWrite ca v, 0)

/-- CHRONICLE. -/
def State.chrWrite (s : State) (off ca : Nat) (v : Word32) : State × Nat :=
  if off = 0x0 then s.orNak (s.chrCfgTo v) Nak.badValue
  else if off = 0xC then s.orNak (s.chrRdTo v) Nak.badValue
  else if 0x40 ≤ off ∧ off < 0x80 then s.lockedIf s.running ca v
  else if 0x1000 ≤ off ∧ off < 0x5000 ∧ off % 16 < 8 then
    s.orNak (s.thrTo (ixOf off 0x1000 16) (off % 8 / 4) v) Nak.badValue
  else (s.plainWrite ca v, 0)

/-- KEYSTORE. -/
def State.keyWrite (s : State) (off ca : Nat) (v : Word32) : State :=
  if 0x10 ≤ off ∧ off < 0x30 then s.keyDataWrite (ixOf off 0x10 4) v
  else if off = 0x30 then (if bit v 0 then s.keyCommitWrite else s)
  else if off = 0x34 then (if bit v 0 then s.keyLater ⟨0, false⟩ else s)
  else s.plainWrite ca v

/-- CIRCULATION: pool, region and ring settings are locked in RUNNING (R193). -/
def State.circWrite (s : State) (off ca : Nat) (v : Word32) : State × Nat :=
  if off = 0xC then (s.hostFree v, 0)
  else
    let pool := decide (0x100 ≤ off) && decide (off < 0x500) && decide (off % 0x40 < 0x10)
    let region := decide (0x800 ≤ off) && decide (off < 0x900)
    s.lockedIf (s.running && (pool || region)) ca v

/-- CORE_CFG: MODE and DEV_ID do not change in RUNNING. -/
def State.coreWrite (s : State) (off ca : Nat) (v : Word32) : State × Nat :=
  if off = 0 ∧ s.running = true ∧ (s.reg ca ^^^ v) &&& 0xC03F0000 ≠ 0 then (s, Nak.badValue) else (s.plainWrite ca v, 0)

/-- A write of a register of the hub node, by block. -/
def State.writeHub (s : State) (ca : Nat) (v : Word32) : State × Nat :=
  let off := caOff ca
  match caBlock ca with
  | 0x1 =>
    if off = 0xC then s.lockedIf s.running ca v
    else if off = 0x10 then (s.hostportWrite v, 0)
    else if off = 0x20 then (s.noticeAck v, 0)
    else (s.plainWrite ca v, 0)
  | 0x4 =>
    if off = 0x10 then s.lockedIf s.running ca v
    else if off = 0x14 then s.orNak (s.tickSetTo v) Nak.configLocked
    else (s.plainWrite ca v, 0)
  | 0x5 => s.timeWrite off ca v
  | 0x6 =>
    if off = 0x0 then s.powCtlTo v
    else if off = 0xC ∧ 105 < bits v 7 0 then (s, Nak.badValue)
    else (s.plainWrite ca v, 0)
  | 0x7 => if off = 0x14 then (s.gateCmdWrite v, 0) else (s.plainWrite ca v, 0)
  | 0x9 => s.chrWrite off ca v
  | 0xA => (s.keyWrite off ca v, 0)
  | 0xB => s.circWrite off ca v
  | 0xE => s.coreWrite off ca v
  | _ => (s.plainWrite ca v, 0)

/-- ACCESSION: a state word of the active bank is not written (R137). -/
def State.accWrite (s : State) (sl ca : Nat) (v : Word32) : State × Nat :=
  let off := caOff ca
  if 0x10000 ≤ off ∧ (off - 0x10000) / 0x4000 = s.activeBank sl then (s, Nak.bankActive)
  else (s.plainWrite ca v, 0)

/-- CATALOGUE. -/
def State.catWrite (s : State) (w ca : Nat) (v : Word32) : State × Nat :=
  let off := caOff ca
  if 0x1000 ≤ off ∧ off % 0x20 = 0 then
    let r := s.dirWrite0 (w / 2) (ixOf off 0x1000 0x20) v
    (r.1, if r.2.isSome then Nak.dirCheck else 0)
  else
    let s1 := s.plainWrite ca v
    (if ca = Reg.catAge w then s1.setWing w { s1.wing w with sweepNew := true } else s1, 0)

/-- A queue, or the enabled children of a node, as the registers hold them. -/
def State.tmBusy (s : State) (sl off : Nat) : Bool :=
  if 0x80000 ≤ off then
    let q := s.queue (32768 * sl + ixOf off 0x80000 16)
    decide (q.depth ≠ 0) || decide (q.pkts ≠ [])
  else (tmEnabled s.regs).any (fun x => decide (x.2.1 = sl) && decide (tmParent x.2.2 (bits (s.reg x.1) 12 0) = some off))

/-- The refusal of a WEIGHT of 0 (R231): no status of Table 13.3 has that name, so BAD_VALUE (R350), with the reason
QUEUE_WEIGHT_ZERO of Table 16.4 in the detail word (DESIGN CHOICE, log 101). -/
def weightZero : Nat := Nak.badValue + 65536 * 0x0402

/-- A write of word 0 of a queue or node in RUNNING (R231): the status it is refused with, and above it the detail word; 0 if it is
accepted. -/
def State.tmRefusal (s : State) (sl off : Nat) (old v : Word32) : Nat :=
  if s.running = false ∨ off % 16 ≠ 0 ∨ tmIsPort off = true then 0
  else if bit v 31 = true ∧ bits v 23 14 = 0 then weightZero
  else if bit old 31 = true ∧ (bit v 31 = false ∨ bits v 12 0 ≠ bits old 12 0) ∧ s.tmBusy sl off = true then Nak.configLocked
  else 0

/-- TM. -/
def State.tmWrite (s : State) (ca : Nat) (v : Word32) : State × Nat :=
  match tmPlace ca with
  | none => (s.plainWrite ca v, 0)
  | some (sl, off) =>
    let r := s.tmRefusal sl off (s.reg ca) v
    if r = 0 then (s.plainWrite ca v, 0) else (s, r)

/-- A write of a meter's word: its buckets are full from the boundary at which it takes effect (R240). -/
def State.noteMeter (s : State) (sl ca : Nat) : State :=
  if Reg.tmMeter sl 0 0 ≤ ca ∧ ca < Reg.tmMeter sl 16384 0 then
    { s with tm := { s.tm with meterNew := s.tm.meterNew ++ [16384 * sl + (ca - Reg.tmMeter sl 0 0) / 16] } }
  else s

/-- OCTET: the registers of a lane that begins no port ignore writes (R252). -/
def State.octWrite (s : State) (o ca : Nat) (v : Word32) : State × Nat :=
  let off := caOff ca
  if off = 0 then s.orNak (s.octModeTo o v) Nak.configLocked
  else if off = 0x10 then (s.eyeCtlWrite o v, 0)
  else if 0x100 ≤ off ∧ off < 0x300 then
    let i := ixOf off 0x100 0x40
    if s.portNamed (8 * o + i) = false then (s, 0)
    else if off % 0x40 = 0 then s.orNak (s.octPortTo o i v) Nak.configLocked
    else (s.plainWrite ca v, 0)
  else (s.plainWrite ca v, 0)

/-- FABRIC: FAB_CTL, FAB_CREDIT and FAB_LOSS are locked while a fabric lane of the device is enabled (R291). -/
def State.fabWrite (s : State) (q ca : Nat) (v : Word32) : State × Nat :=
  let off := caOff ca
  if off < 0xC then s.lockedIf s.anyLaneEn ca v
  else if off < 0x100 then (s.plainWrite ca v, 0)
  else
    let l := 128 * q + ixOf off 0x100 0x40
    if off % 0x40 = 0 then s.orNak (s.laneCfgTo l v) Nak.configLocked
    else if off % 0x40 = 4 then (s.laneCtlWrite l v, 0)
    else (s.plainWrite ca v, 0)

/-- GDDR: UNMAP, once 1, is cleared only by reset. -/
def State.gddrWrite (s : State) (ca : Nat) (v : Word32) : State :=
  if caOff ca = 4 then s.plainWrite ca (setBits v 1 1 (b2n (bit v 1 || bit (s.reg ca) 1))) else s.plainWrite ca v

/-- STACKS: RETRAIN_ALL is refused in RUNNING (R207). -/
def State.stkWrite (s : State) (ca : Nat) (v : Word32) : State × Nat :=
  s.lockedIf (decide (caOff ca = 4) && bit v 0 && s.running) ca v

/-- A write of a register of quadrant q, by block. -/
def State.writeQuad (s : State) (q ca : Nat) (v : Word32) : State × Nat :=
  let b := caBlock ca
  let sl := 2 * q + b % 2
  if b = 0x10 ∨ b = 0x11 then s.accWrite sl ca v
  else if b = 0x16 ∨ b = 0x17 then s.catWrite sl ca v
  else if b = 0x18 ∨ b = 0x19 then (s.noteMeter sl ca).tmWrite ca v
  else if (b = 0x1A ∨ b = 0x1B) ∧ caOff ca = 4 then (s.saCmd sl v, 0)
  else if 0x20 ≤ b ∧ b < 0x30 then s.octWrite (16 * q + (b - 0x20)) ca v
  else if 0x38 ≤ b ∧ b < 0x3E then (s.gddrWrite ca v, 0)
  else if b = 0x3E then s.stkWrite ca v
  else if b = 0x3F then s.fabWrite q ca v
  else (s.plainWrite ca v, 0)

/-- A write of a register: the state after it and a DCP status, 0 if it is accepted. A write to an unassigned offset is
ignored (R14); a refused write changes nothing but what its rule says it records. -/
def State.writeReg (s : State) (ca : Nat) (v : Word32) : State × Nat :=
  match regRow ca with
  | none => (s, 0)
  | some _ => if caNode ca = 0 then s.writeHub ca v else s.writeQuad (caNode ca - 4) ca v

/-- REGISTER_WRITE (R16, R32, R33): a write by the warden, past the checks of its session. In CHECKING every write is
refused (R403). What a write changes in the data plane appears at the next boundary. -/
def execRegisterWrite (ca v : Word32) (s : State) : Res :=
  if s.regRefusal ca.toNat ≠ 0 ∨ s.boot.phase = .checking then .next s else .next (s.writeReg ca.toNat v).1

/-- DCP_HOSTPORT_WRITE (R340). -/
def execDcpHostportWrite (v : Word32) (s : State) : Res := .next (s.hostportWrite v)

/-- DCP_NOTICE_ACK_WRITE (R352). -/
def execDcpNoticeAckWrite (v : Word32) (s : State) : Res := .next (s.noticeAck v)

end Sys2Proof.Machine
end

