-- ==== Sys2Proof/Machine/Bulk.lean ====
section
/-! DEFINITION. Bulk transfers of device memory (R25 to R27, R181, R182, R208, R209, R348) and the field record (R422). -/

namespace Sys2Proof.Machine

/-! ### Ranges (R25, R26) -/

/-- The range that a transfer of n bytes lies in; none where R26 refuses it. -/
def State.bulkAt (s : State) (write : Bool) (a n : Nat) : Option BulkKind :=
  match bulkRange a with
  | none => none
  | some (k, stop) =>
    if stop < a + n then none
    else match k with
      | .stacks true => if s.strapF 7 6 = 1 then some k else none
      | .odb => if write ∨ s.boot.phase = .running then none else some k
      | _ => some k

/-- The units of a wing that a transfer touches. -/
def bulkUnits (a n : Nat) : List Nat :=
  let o := a % 0x100000000
  (List.range ((o + n + 63) / 64 - o / 64)).map (fun i => o / 64 + i)

/-- A byte of the Stacks that belongs to the Chronicle ring (R346). -/
def State.inChron (s : State) (a n : Nat) : Bool :=
  (List.range 32).any (fun r =>
    let w := s.reg (Reg.circRegionA r)
    let base := bits w 17 0 * regionUnit
    decide (bits w 31 29 = 3) && decide (a < base + bits (s.reg (Reg.circRegionB r)) 18 0 * regionUnit) && decide (base < a + n))

/-- A transfer is refused before it begins: the status, 0 where it is not (R26, R182, R209, R346, R348, R85). lock says that
LOCK or UNLOCK is set, granted that the session may see counters. -/
def State.bulkRefusal (s : State) (write lock granted : Bool) (a n : Nat) : Nat :=
  if n = 0 then Nak.lenZero
  else if a % 4 ≠ 0 ∨ n % 4 ≠ 0 then Nak.badAlign
  else if 8192 < n then Nak.badLength
  else match s.bulkAt write a n with
    | none => Nak.badAddress
    | some k =>
      match k with
      | .wing _ =>
        if s.boot.nodesReady = false then Nak.nodeNotReady
        else if lock && !(bulkUnits a n).all lockable then Nak.lockRange else 0
      | .store _ =>
        if s.boot.nodesReady = false then Nak.nodeNotReady
        else if lock then Nak.lockRange else if write then Nak.imagePathOnly else 0
      | .odb => if lock then Nak.lockRange else 0
      | .stacks _ =>
        if lock then Nak.lockRange
        else if s.inChron a n && !granted then Nak.notGranted
        else if s.stacksOk a n = false then Nak.stacksUnmapped
        else 0

/-! ### Transfers -/

/-- A word of the main copy of a program store, with what has upset it; unwritten words read as zero (R85, R97). -/
def Cluster.mainWord (c : Cluster) (i : Nat) : Word64 :=
  (c.prog.elim 0 (fun p => p.words.getD i 0)) ^^^ (SMap.find 0 c.mainErr i).setWidth 64

/-- The bytes of the main copy of a program store: its words, little-endian (R85, R93). -/
def State.storeBytes (s : State) (k o n : Nat) : List Byte :=
  slice0 ((List.range (n / 8 + 2)).flatMap (fun i => leBytes 8 ((s.cluster k).mainWord (o / 8 + i)).toNat)) (o % 8) n

/-- The locks that a transfer of a wing sets or clears, unit by unit (R182). -/
def State.bulkLock (s : State) (k : BulkKind) (a n : Nat) (lock unlock : Bool) : State :=
  match k with
  | .wing w =>
    (bulkUnits a n).foldl (fun x u => if lock then x.lockUnit w u else if unlock then x.unlockUnit w u else x) s
  | _ => s

/-- A port whose next host read is uncorrectable, among those a Stacks transfer touches (R208). -/
def State.failedRead (s : State) (a n : Nat) : Option Nat :=
  s.gddr.readFail.find? (fun g =>
    (List.range ((a + n - 1) / stripeBytes + 1 - a / stripeBytes)).any (fun i => decide (s.stripePort (a / stripeBytes + i) = g)))

/-- The bytes that a read of a range returns. -/
def State.bulkBytes (s : State) (k : BulkKind) (a n : Nat) : List Byte :=
  match k with
  | .stacks _ => s.stkGet a n
  | .wing _ => memGet s.mem a n
  | .store c => s.storeBytes c (a % 0x1000000) n
  | .odb => memGet s.mem a n

/-- BULK_READ: status and bytes. -/
def State.bulkRead (s : State) (lock unlock granted : Bool) (a n : Nat) : State × Nat × List Byte :=
  let r := s.bulkRefusal false (lock || unlock) granted a n
  if r ≠ 0 then (s, r, [])
  else match s.bulkAt false a n with
    | none => (s, Nak.badAddress, [])
    | some k =>
      match (match k with
        | .stacks _ => s.failedRead a n
        | _ => none) with
      | some g => ({ s with gddr := { s.gddr with readFail := s.gddr.readFail.erase g } }, Nak.stacksReadErr, [])
      | none =>
        (s.bulkLock k a n lock unlock, 0, s.bulkBytes k a n)

/-- The write of one unit of a wing, or of the part of it that the transfer covers (R181). -/
def State.putUnit (s : State) (w a : Nat) (bs : List Byte) (u : Nat) : State :=
  let lo := max (a % 0x100000000) (64 * u)
  let hi := min (a % 0x100000000 + bs.length) (64 * u + 64)
  s.unitPut w u (lo - 64 * u) ((bs.drop (lo - a % 0x100000000)).take (hi - lo))

/-- BULK_WRITE: the state after it and a status. Units of a wing are written at once, visible to every later lookup
(R181). -/
def State.bulkWrite (s : State) (lock unlock : Bool) (a : Nat) (bs : List Byte) : State × Nat :=
  let r := s.bulkRefusal true (lock || unlock) true a bs.length
  if r ≠ 0 then (s, r)
  else match s.bulkAt true a bs.length with
    | some (.wing w) =>
      (((bulkUnits a bs.length).foldl (fun x u => x.putUnit w a bs u) s).bulkLock (.wing w) a bs.length lock unlock, 0)
    | some (.stacks _) => (s.stkPut a bs, 0)
    | _ => (s, Nak.badAddress)

/-! ### The field record (R422) -/

/-- A register word as it stands in a payload. -/
def State.recReg (s : State) (ca : Nat) : List Byte := beBytes 4 (s.regView ca).toNat

/-- Bytes up to a length. -/
def padTo (n : Nat) (l : List Byte) : List Byte := l ++ List.replicate (n - l.length) 0

/-- A life-log entry. -/
def lifeBytes (event object state : Nat) : List Byte :=
  beBytes 2 event ++ beBytes 4 object ++ [BitVec.ofNat 8 state, 0]

/-- The life log: the entries burnt before this reset, then those burnt since. -/
def State.lifeRecord (s : State) : List Byte :=
  padTo 1024 ((List.range lifeBurnt).flatMap (fun i =>
      let e := Config.lifeEntry i
      lifeBytes (bits e 55 40) (bits e 39 8) (bits e 7 0)) ++
    s.vigil.life.flatMap (fun e => lifeBytes e.event.toNat e.object.toNat e.state))

/-- The Vigil log, oldest first. -/
def State.vigRecord (s : State) : List Byte :=
  padTo 4096 (s.vigil.log.flatMap (fun e =>
    beBytes 8 e.tick.toNat ++ beBytes 2 e.event.toNat ++ [BitVec.ofNat 8 e.state, 0] ++ beBytes 4 e.object.toNat))

/-- The last 64 notices generated. -/
def State.noticeRecord (s : State) : List Byte :=
  let l := s.dcp.sentLog ++ s.dcp.notices
  padTo 1024 ((l.drop (l.length - 64)).flatMap (fun n =>
    beBytes 4 n.num.toNat ++ beBytes 2 n.type.toNat ++ [0, 0] ++ beBytes 4 n.tick.toNat ++ slice0 n.body 0 4))

/-- The first 1,024 bytes. -/
def State.recHead (s : State) : List Byte :=
  padTo 0x100 (beBytes 4 0x46524331 ++ [1, BitVec.ofNat 8 dieRev, BitVec.ofNat 8 s.boot.phase.code, BitVec.ofNat 8 s.vigil.state] ++
    beBytes 4 s.vigil.reasons.toNat ++ s.recReg Reg.clkEvents ++ (List.range 4).flatMap (fun i => s.recReg (Reg.hubFuseId i)) ++
    beBytes 8 s.now ++ beBytes 4 (nsOf s.oNow).toNat ++ s.recReg Reg.vigCapRate ++ s.recReg Reg.vigCapPaths ++
    s.recReg Reg.vigCapMem ++ s.recReg Reg.hubStraps ++ s.recReg Reg.powStatus) ++
  (List.range 32).flatMap (fun k => s.recReg (Reg.scrSpareMap (k / 4) (k % 4))) ++
  (List.range 24).flatMap (fun g => s.recReg (Reg.gdStatus g)) ++
  (List.range 16).map (fun p => BitVec.ofNat 8 ((s.plane p).cause * 16 + (s.plane p).state)) ++ List.replicate 16 0 ++
  padTo 0x200 ((List.range 8).flatMap (fun w => s.recReg (Reg.vigWingEcc w 0) ++ s.recReg (Reg.vigWingEcc w 1)) ++
    s.recReg (Reg.vigOdbEcc 0) ++ s.recReg (Reg.vigOdbEcc 1) ++
    (List.range 4).flatMap (fun q => s.recReg (Reg.qctlLinkErrCnt q) ++ s.recReg (Reg.vigCtrlUncorr q)) ++
    (List.range 24).flatMap (fun g => s.recReg (Reg.gdUncorrCnt g)))

/-- The record with its CRC-32. O is that of the instant at which the operation executes. -/
def State.fieldRecord (s : State) : List Byte :=
  let t := s.atRead Reg.timeStatus
  let l := padTo 0x1FFC (t.recHead ++ t.lifeRecord ++ t.vigRecord ++ t.noticeRecord)
  l ++ beBytes 4 (crc32 polyEth l).toNat

end Sys2Proof.Machine
end

