-- ==== Sys2Proof/Machine/Loader.lean ====
section
/-! DEFINITION. The loader: program and Codex images, the refusals of Table 3.6 and the budget proof (R86 to R96). -/

namespace Sys2Proof.Machine

/-- A refusal of an image, or its acceptance: status and DETAIL (R94). -/
abbrev Refusals := Option (Nat × Nat)

/-- The big-endian field of n bytes at offset o of an image (R93). -/
def imgField (b : List Byte) (o n : Nat) : Nat := beNat (slice0 b o n)

/-- The big-endian numbers of k fields of n bytes each, from the start of a list. -/
def beFields (n : Nat) : Nat → List Byte → List Nat
  | 0, _ => []
  | k + 1, b => beNat (b.take n) :: beFields n k (b.drop n)

/-- The least number at which a condition applies, with its status. -/
def lowestAt (st : Nat) (l : List Nat) : Refusals := (l.min?).map (fun d => (st, d))

/-- The first refusal of a list. -/
def firstRefusal : List Refusals → Refusals
  | [] => none
  | some x :: _ => some x
  | none :: l => firstRefusal l

/-! ### The path count (R95) -/

/-- What the paths from a word to the end of a piece of code come to: the longest count of words, the largest number of
words of Table 3.3, and whether some path reaches the end without retiring. -/
structure PathInfo where
  len     : Nat
  commits : Nat
  falls   : Bool
  deriving DecidableEq, Repr

/-- The end of the code. -/
def PathInfo.end' : PathInfo := { len := 0, commits := 0, falls := true }

/-- Either of two continuations. -/
def PathInfo.join (a b : PathInfo) : PathInfo :=
  { len := max a.len b.len, commits := max a.commits b.commits, falls := a.falls || b.falls }

/-- One word before a continuation. -/
def PathInfo.after (n c : Nat) (a : PathInfo) : PathInfo := { a with len := a.len + n, commits := a.commits + c }

/-- The words that append a commit-buffer entry (Table 3.3). -/
def commits (nw : Nat) : Bool :=
  [0x210, 0x211, 0x212, 0x400, 0x401, 0x402, 0x403, 0x404, 0x410, 0x500, 0x501, 0x701, 0x702].contains nw

/-- The words that retire a run (R67, R127, R129). -/
def retires (nw : Nat) : Bool := [0x310, 0x311, 0x400, 0x401, 0x402, 0x403, 0x404].contains nw

/-- The displacement of an operand of type 0xA; 0 for every other. -/
def opDisp : Operand → Nat
  | .disp d => d.toNat
  | _ => 0

/-- The immediate of an operand of type 0x1; 0 for every other. -/
def opImm : Operand → Nat
  | .uimm v => v.toNat
  | _ => 0

/-- The paths from the n-th following word, of which rest lists the paths; past them the code ends. -/
def pathAt (rest : List PathInfo) (n : Nat) : PathInfo := rest.getD n PathInfo.end'

/-- The paths from a word that is no LOOP, given those from each word after it. A gated word is followed both ways; BRC
with PRED 0 always branches (R106, R127). -/
def wordPath (w : DWord) (rest : List PathInfo) : PathInfo :=
  let nw := w.nw.toNat
  let c := b2n (commits nw)
  let next := pathAt rest 0
  if nw = 0x300 ∨ nw = 0x301 then
    let taken := pathAt rest (opDisp w.c - 1)
    (if nw = 0x300 ∨ w.pred = 0 then taken else taken.join next).after 1 0
  else if retires nw then
    let here : PathInfo := { len := 1, commits := c, falls := false }
    if w.pred = 0 then here else here.join (next.after 1 c)
  else next.after 1 c

/-- The paths from each word of a loop body, to the first word after it. -/
def bodyPaths : List DWord → List PathInfo
  | [] => []
  | w :: ws => wordPath w (bodyPaths ws) :: bodyPaths ws

/-- The paths from a LOOP word (R95, R106, R128). -/
def loopPath (w : DWord) (ws : List DWord) (rest : List PathInfo) : PathInfo :=
  let n := opImm w.a
  let b := opDisp w.b
  let past := pathAt rest b
  let body := pathAt (bodyPaths (ws.take b)) 0
  let skip := past.after 1 0
  let all : PathInfo :=
    { len := 1 + n * body.len + (if body.falls then past.len else 0),
      commits := n * body.commits + (if body.falls then past.commits else 0), falls := body.falls && past.falls }
  if n = 0 then skip else if w.pred = 0 then all else all.join skip

/-- The paths from each word of a program. -/
def codePaths : List DWord → List PathInfo
  | [] => []
  | w :: ws =>
    let rest := codePaths ws
    (if w.nw = 0x302 then loopPath w ws rest else wordPath w rest) :: rest

/-! ### Program images (R93, R94) -/

/-- An operand is a reserved encoding of R108: a type without a name, or displacement 0. -/
def operandReserved (x : BitVec 16) : Bool := [0x8, 0xB, 0xC, 0xD, 0xE].contains (bits x 15 12) || x == 0xA000

/-- A word that is accepted for its predicate and operands; an extension nanoword is held to the reserved encodings
alone (R104, R113). -/
def wordOk (x : BitVec 64) : Bool :=
  if 0x800 ≤ bits x 63 52 then (List.range 3).all (fun i => !operandReserved (x.extractLsb' (16 * i) 16))
  else (decodeWord x).elim false DWord.ok

/-- The words of an image from offset o. -/
def imgWords (b : List Byte) (o n : Nat) : List (BitVec 64) :=
  (beFields 8 n (b.drop o)).map (BitVec.ofNat 64)

/-- The addresses of the words at which a condition applies. -/
def wordsAt (ws : List DWord) (f : Nat → DWord → Bool) : List Nat :=
  ((List.range ws.length).zip ws).filterMap (fun x => if f x.1 x.2 then some x.1 else none)

/-- Header, reserved fields and image length (Table 3.4). -/
def headerOk (b : List Byte) : Bool :=
  let e := imgField b 0x10 2
  let n := imgField b 0x14 4
  decide (imgField b 4 4 = 2 ^ 24) && decide (imgField b 0x0C 4 < 4) && decide (imgField b 0x12 2 = 0) &&
  decide (imgField b 0x1C 4 = 0) && decide (1 ≤ e) && decide (e ≤ 64) && decide (1 ≤ n) && decide (n ≤ 16384) &&
  decide (b.length = 36 + 8 * e + 8 * n) && (List.range e).all (fun i => decide (imgField b (0x20 + 8 * i + 6) 2 = 0))

/-- The CRC at the end of an image matches (R93). -/
def crcOk (b : List Byte) : Bool :=
  decide (imgField b (b.length - 4) 4 = (crc32 polyEth (b.take (b.length - 4))).toNat)

/-- The entries of an image as they stand, with no computed WCET. -/
def imgEntries (b : List Byte) : List Entry :=
  (List.range (imgField b 0x10 2)).map (fun i =>
    let o := 0x20 + 8 * i
    { index := imgField b o 1, kind := imgField b (o + 1) 1, start := imgField b (o + 2) 2,
      wcet := imgField b (o + 4) 2, computed := 0 })

/-- The entry indices that IMAGE_ENTRY refuses, of a list of entries and the indices already seen. -/
def badEntries (n : Nat) : List Nat → List Entry → List Nat
  | _, [] => []
  | seen, e :: es =>
    let r := badEntries n (e.index :: seen) es
    if seen.contains e.index ∨ 63 < e.index ∨ n ≤ e.start ∨ 3 < e.kind then e.index :: r else r

/-- The last address that a LOOP word's body takes in, for every LOOP. -/
def loopBodies (ws : List DWord) : List (Nat × Nat) :=
  ((List.range ws.length).zip ws).filterMap (fun x => if x.2.nw = 0x302 then some (x.1, x.1 + opDisp x.2.b) else none)

/-- A branch or a LOOP body that passes the last word (R127, R128). -/
def branchBad (n i : Nat) (w : DWord) : Bool :=
  let nw := w.nw.toNat
  ((nw == 0x300 || nw == 0x301) && decide (n ≤ i + opDisp w.c)) || (nw == 0x302 && decide (n ≤ i + opDisp w.b))

/-- A LOOP count above 16, a LOOP inside a body, or a branch out of a body (Table 3.6). -/
def loopBad (bodies : List (Nat × Nat)) (i : Nat) (w : DWord) : Bool :=
  let nw := w.nw.toNat
  let within := bodies.filter (fun b => decide (b.1 < i) && decide (i ≤ b.2))
  (nw == 0x302 && (decide (16 < opImm w.a) || !within.isEmpty)) ||
  ((nw == 0x300 || nw == 0x301) && within.any (fun b => decide (b.2 + 1 < i + opDisp w.c)))

/-- The entries that a condition on their paths refuses. -/
def entriesAt (ps : List PathInfo) (es : List Entry) (f : Entry → PathInfo → Bool) : List Nat :=
  (es.filter (fun e => f e (pathAt ps e.start))).map (fun e => e.index)

/-- The words of an image, decoded; of an extension word with reserved bits set the operands are left out, since none of the checks
looks at them (R104). -/
def imgDWords (l : List (BitVec 64)) : List DWord :=
  l.map (fun x => (decodeWord x).getD ⟨x.extractLsb' 52 12, x.extractLsb' 48 4, .none, .none, .none⟩)

/-- The present entries of an image (kind 0 is absent). -/
def presentEntries (b : List Byte) : List Entry := (imgEntries b).filter (fun e => decide (e.kind ≠ 0))

/-- A Codex defines a nanoword: it is not all zero. -/
def Codex.defines (c : Codex) (nw : Nat) : Bool := decide (c.words.getD nw 0 ≠ 0)

/-- The conditions of Table 3.6 that look at the words, in its order. -/
def wordRefusals (b : List Byte) (cdx : Codex) : Refusals :=
  let o := 0x20 + 8 * imgField b 0x10 2
  let n := imgField b 0x14 4
  let ws := imgDWords (imgWords b o n)
  let caps := imgField b 0x0C 4
  let es := presentEntries b
  let ps := codePaths ws
  firstRefusal [
    lowestAt Nak.imageCaps (wordsAt ws (fun _ w =>
      (w.nw == 0x502 && decide (caps % 2 = 0)) || (decide (0x800 ≤ w.nw.toNat) && decide (caps / 2 % 2 = 0)))),
    lowestAt Nak.imageNanoword (wordsAt ws (fun _ w => !cdx.defines w.nw.toNat)),
    lowestAt Nak.imageEntry (badEntries n [] (imgEntries b)),
    lowestAt Nak.imageBranch (wordsAt ws (branchBad n)),
    lowestAt Nak.imageLoop (wordsAt ws (loopBad (loopBodies ws))),
    lowestAt Nak.imageFalloff (entriesAt ps es (fun _ p => p.falls)),
    lowestAt Nak.imageWcet (entriesAt ps es (fun e p => decide (e.wcet < p.len))),
    lowestAt Nak.imageCommitDepth (entriesAt ps es (fun _ p => decide (16 < p.commits)))]

/-- The refusal of a program image by a cluster that holds a Codex or none (Table 3.6). -/
def programRefusal (b : List Byte) (cdx : Option Codex) : Refusals :=
  if imgField b 0 4 ≠ 0x444E4D31 then some (Nak.imageMagic, 0)
  else if !headerOk b then some (Nak.imageFormat, 0)
  else
    let raw := imgWords b (0x20 + 8 * imgField b 0x10 2) (imgField b 0x14 4)
    match ((List.range raw.length).zip raw).find? (fun x => !wordOk x.2) with
    | some x => some (Nak.imageFormat, x.1)
    | none =>
      if !crcOk b then some (Nak.imageCrc, 0)
      else match cdx with
        | none => some (Nak.imageCodexMin, 0)
        | some c => if c.version.toNat < imgField b 8 4 then some (Nak.imageCodexMin, 0) else wordRefusals b c

/-- The program that an accepted image holds (R93, R95). -/
def programOf (b : List Byte) : Program :=
  let raw := imgWords b (0x20 + 8 * imgField b 0x10 2) (imgField b 0x14 4)
  let ps := codePaths (imgDWords raw)
  { imageId := BitVec.ofNat 32 (imgField b 0x18 4), crc := BitVec.ofNat 32 (imgField b (b.length - 4) 4),
    caps := BitVec.ofNat 32 (imgField b 0x0C 4), minCodex := BitVec.ofNat 32 (imgField b 8 4),
    count := imgField b 0x10 2,
    entries := (presentEntries b).map (fun e => { e with computed := (pathAt ps e.start).len }), words := raw }

/-! ### Codex images (R87, R94) -/

/-- The nanowords of a Codex image, most significant byte first (Table 3.5). -/
def codexWords (b : List Byte) : List (BitVec 384) :=
  (beFields 48 4096 (b.drop 16)).map (BitVec.ofNat 384)

/-- The refusal of a Codex image by a cluster with or without a program (R87, R94). -/
def codexRefusal (b : List Byte) (prog : Option Program) : Refusals :=
  if imgField b 0 4 ≠ 0x43445831 then some (Nak.imageMagic, 0)
  else if imgField b 8 4 ≠ 4096 ∨ imgField b 0xC 4 ≠ 0 ∨ b.length ≠ 0x30014 then some (Nak.imageFormat, 0)
  else if !crcOk b then some (Nak.imageCrc, 0)
  else match (beFields 48 0x800 (b.drop 16)).findIdx? (fun x => decide (x = 0)) with
    | some i => some (Nak.imageNanoword, i)
    | none => match prog with
      | some p => if imgField b 4 4 < p.minCodex.toNat then some (Nak.imageCodexMin, 0) else none
      | none => none

/-- The Codex that an accepted image holds. -/
def codexOf (b : List Byte) : Codex :=
  { version := BitVec.ofNat 32 (imgField b 4 4), crc := BitVec.ofNat 32 (imgField b 0x30010 4), words := codexWords b }

/-! ### Loading (R86, R91) -/

/-- An EMPTY cluster that holds both images is STOPPED (R91). -/
def Cluster.loaded (c : Cluster) : Cluster :=
  if c.state = .empty ∧ c.codex.isSome ∧ c.prog.isSome then { c with state := .stopped } else c

/-- PS_LOAD_STATUS of a cluster. -/
def State.loadStatus (s : State) (k result detail : Nat) : State :=
  s.setReg (Reg.psLoadStatus (k / 4) (k % 4)) (BitVec.ofNat 32 (detail % 65536 * 65536 + result))

/-- A cluster accepts a program: its registers, and its energy account starts anew (R94, R102, R391). -/
def State.loadProgram (s : State) (k : Nat) (p : Program) : State :=
  let sl := k / 4
  let j := k % 4
  let s1 := s.setCluster k { ((s.cluster k).freshStore 0 16384) with prog := some p }.loaded
  let info := bits p.caps 7 0 * 2 ^ 24 + p.count * 2 ^ 16 + p.words.length
  let s2 := (s1.setReg (Reg.psImageId sl j) p.imageId).setReg (Reg.psImageCrc sl j) p.crc
  let s3 := s2.setReg (Reg.psInfo sl j) (BitVec.ofNat 32 info)
  ((s3.setReg (Reg.powJob k 0) 0).setReg (Reg.powJob k 1) 0).loadStatus k 0 0

/-- A cluster accepts a Codex (R87). -/
def State.loadCodex (s : State) (k : Nat) (c : Codex) : State :=
  let s1 := s.setCluster k { ((s.cluster k).freshStore 16384 storeWords) with codex := some c }.loaded
  ((s1.setReg (Reg.scrCodexVer (k / 4) (k % 4)) c.version).setReg (Reg.scrCodexCrc (k / 4) (k % 4)) c.crc).loadStatus k 0 0

/-- One named cluster judges an image and loads it or records its refusal. -/
def State.loadOne (s : State) (kind : Nat) (b : List Byte) (k : Nat) : State × Refusals :=
  let r := if kind = 1 then programRefusal b (s.cluster k).codex else codexRefusal b (s.cluster k).prog
  match r with
  | some x => (s.loadStatus k x.1 x.2, r)
  | none => (if kind = 1 then s.loadProgram k (programOf b) else s.loadCodex k (codexOf b), none)

/-- The clusters that a mask names, rising. -/
def maskClusters (mask : Word32) : List Nat := (List.range 32).filter (fun k => bit mask k)

/-- The clusters of a list load an image; the refusal of the lowest-numbered one that refuses (R86). -/
def State.loadAll (s : State) (kind : Nat) (b : List Byte) : List Nat → State × Refusals
  | [] => (s, none)
  | k :: ks =>
    let a := s.loadOne kind b k
    let r := a.1.loadAll kind b ks
    (r.1, match a.2 with
      | some x => some (x.1, k * 65536 + x.2 % 65536)
      | none => r.2)

/-- A complete image is checked and loaded; status 0 and detail 0 on success (R86). -/
def State.loadImage (s : State) (kind : Nat) (mask : Word32) (b : List Byte) : State × Nat × Nat :=
  let ks := maskClusters mask
  match ks.find? (fun k => (s.cluster k).state == .running || (s.cluster k).state == .checking) with
  | some k => (s, Nak.clusterRunning, k * 65536)
  | none =>
    let r := s.loadAll kind b ks
    (r.1, r.2.getD (0, 0))

end Sys2Proof.Machine
end

