-- ==== Sys2Proof/Machine/DcpOps.lean ====
section
/-! DEFINITION. Sessions and operations of the control protocol: acceptance, at-most-once delivery, rights, and what each
operation does or waits for (chapter 13, sections 4 to 6; R35, R85, R86, R90 to R92, R403). -/

namespace Sys2Proof.Machine

/-! ### Responses (R341, R343, R347) -/

/-- A response joins those that wait for their port; where the port is not UP it is discarded (R341). -/
def State.sendResp (s : State) (r : Resp) : State :=
  if s.portSt (512 + r.hdr.hp.val) = .up then { s with dcp := { s.dcp with resps := s.dcp.resps ++ [r] } } else s

/-- An operation that is not accepted is answered, and nothing is kept of it. -/
def State.refuseOp (s : State) (h : OpHdr) (status : Nat) : State :=
  s.sendResp { hdr := h, status := status, detail := 0, payload := [], etype := none }

/-- The answer of an operation: status 0 for ACK, detail and payload. -/
structure OpAns where
  status  : Nat
  detail  : Nat
  payload : List Byte
  deriving DecidableEq, Repr

/-- ACK without a payload. -/
def OpAns.ack : OpAns := ⟨0, 0, []⟩

/-- NAK without payload: the status, and above it the detail word. -/
def OpAns.nak (status : Nat) : OpAns := ⟨status % 65536, status / 65536, []⟩

/-- NAK CHECK_REFUSED with its reason code and detail word (R348). -/
def OpAns.refused (code detail : Nat) : OpAns := ⟨Nak.checkRefused, detail, beBytes 2 code ++ [0, 0]⟩

/-- An effect has completed: operations that wait for those before them wait for the boundary that follows it (R35). -/
def State.unpass (s : State) (session no : Nat) : State :=
  { s with dcp := { s.dcp with
      waiting := s.dcp.waiting.map (fun w =>
        if no < w.no ∧ (w.hdr.session.val = session ∨ ¬(w.what = .fence)) then { w with passed := false } else w) } }

/-- An accepted operation completes: its response is cached, and goes to where its latest copy came from (R347). effect
says that its data-plane effect appears at the next boundary. -/
def State.complete (s : State) (h : OpHdr) (no : Nat) (effect : Bool) (etype : Option (BitVec 16)) (a : OpAns) : State :=
  let i := h.session.val
  let x := s.session i
  match x.prog.find? (fun o => decide (o.seq = h.seq)) with
  | none => s.sendResp { hdr := h, status := a.status, detail := BitVec.ofNat 32 a.detail, payload := a.payload, etype := etype }
  | some o =>
    let r : Resp :=
      { hdr := { h with hp := Fin.ofNat 2 o.hp, mac := o.mac }, status := a.status, detail := BitVec.ofNat 32 a.detail
        payload := a.payload, etype := etype }
    let s1 := s.setSession i { x with
      prog := x.prog.filter (fun y => decide (y.seq ≠ h.seq))
      cache := (x.cache ++ [r]).drop (x.cache.length + 1 - 64)
      fresh := x.fresh || effect }
    (if effect then s1.unpass i no else s1).sendResp r

/-- A start action. -/
def Wait.isStart : Wait → Bool
  | .start _ _ => true
  | _ => false

/-- A waiting operation completes. What an ENABLE, a DISABLE and a start action do appears at the next boundary (R35, R90). -/
def State.finish (s : State) (w : Waiting) (a : OpAns) : State :=
  ({ s with dcp := { s.dcp with waiting := s.dcp.waiting.filter (fun y => decide (y.no ≠ w.no)) } }).complete w.hdr w.no
    (w.what == Wait.enable || w.what == Wait.disable || w.what.isStart) none a

/-! ### Checks before an operation runs (R343 to R348) -/

/-- The opcode is listed for a version (Table 13.2; R345). -/
def opKnown (ver opcode : Nat) : Bool :=
  decide (1 ≤ opcode) && (decide (opcode ≤ 11) || (decide (opcode ≤ 13) && decide (ver = 3)))

/-- No FLAGS bit is set that the opcode does not use, nor LOCK with UNLOCK (R343). -/
def opFlagsOk (opcode flags : Nat) : Bool :=
  if opcode = 5 ∨ opcode = 6 then decide (flags ≤ 2)
  else if opcode = 7 then decide (flags = 0) || decide (flags = 4)
  else decide (flags = 0)

/-- The payload length matches the opcode (R348). -/
def opLengthOk (opcode : Nat) (p : List Byte) : Bool :=
  match opcode with
  | 1 => decide (p.length = 4)
  | 2 => decide (p.length = 4)
  | 3 => decide (p.length = 8)
  | 4 => decide (p.length = 12)
  | 5 => decide (p.length = 12)
  | 6 => decide (12 ≤ p.length) && decide (p.length = 12 + payNat p 8 4)
  | 10 => decide (p.length = 8)
  | 11 => decide (16 ≤ p.length) && decide (p.length ≤ 8208)
  | 13 => decide (p.length = 4)
  | _ => decide (p.length = 0)

/-- Only the warden may issue the operation (Table 13.2, R346). -/
def opWarden (opcode flags : Nat) : Bool :=
  [3, 4, 6, 8, 9, 10, 11].contains opcode || (decide (opcode = 5) && decide (flags ≠ 0))

/-- The operation changes what appears at a boundary, so that a FENCE waits for it (R35). -/
def opEffect (opcode : Nat) : Bool := [3, 4, 10].contains opcode

/-- The session is the warden. -/
def State.isWarden (s : State) (i : Nat) : Bool := s.dcp.warden == some i

/-- A session may see counters: the warden, or a reader with its bit of DCP_GRANT (R346). -/
def State.granted (s : State) (i : Nat) : Bool := s.isWarden i || bit (s.reg Reg.dcpGrant) i

/-- Why an accepted operation is refused before it begins; 0 where it is not. The order is DEDUCED (log 60). -/
def State.opRefusal (s : State) (op : DcpOp) : Nat :=
  let i := op.hdr.session.val
  let ver := (s.session i).ver
  let f := op.hdr.flags.toNat
  if op.hdr.version.toNat ≠ ver then Nak.badVersion
  else if opKnown ver op.opcode = false then Nak.badOpcode
  else if opFlagsOk op.opcode f = false then Nak.badValue
  else if opLengthOk op.opcode op.payload = false then Nak.badLength
  else if opWarden op.opcode f = false then 0
  else if ver = 3 ∧ op.hdr.epoch ≠ s.dcp.epoch then Nak.staleEpoch
  else if s.isWarden i = false then Nak.notWarden
  else if s.boot.phase = .checking then Nak.badState
  else 0

/-- STALE_EPOCH is recorded where an operation is refused with it. -/
def State.noteStale (s : State) (status : Nat) : State := if status = Nak.staleEpoch then s.setEv Reg.dcpEvents 3 else s

/-! ### Register operations -/

/-- READ. -/
def State.opRead (s : State) (i ca : Nat) : State × OpAns :=
  let r := s.regRefusal ca
  if r ≠ 0 then (s, .nak r)
  else if touchesCounter ca && !s.granted i then (s, .nak Nak.notGranted)
  else
    let x := s.readReg i ca
    (x.1, ⟨0, 0, beBytes 4 x.2.toNat⟩)

/-- WRITE. -/
def State.opWrite (s : State) (ca : Nat) (v : Word32) : State × OpAns :=
  let r := s.regRefusal ca
  if r ≠ 0 then (s, .nak r)
  else
    let x := s.writeReg ca v
    (x.1, .nak x.2)

/-- RMW: a refused write half leaves what the read half would have cleared. -/
def State.opRmw (s : State) (i ca : Nat) (mask v : Word32) : State × OpAns :=
  let r := s.regRefusal ca
  if r ≠ 0 then (s, .nak r)
  else
    let x := s.readReg i ca
    let y := x.1.writeReg ca ((x.2 &&& ~~~mask) ||| (v &&& mask))
    if y.2 = 0 then (y.1, ⟨0, 0, beBytes 4 x.2.toNat⟩) else ((s.writeReg ca ((x.2 &&& ~~~mask) ||| (v &&& mask))).1, .nak y.2)

/-! ### STOP_CLUSTER (R83, R90 to R92) -/

/-- A cluster refuses an action. -/
def ClState.refuses (c : ClState) (start : Bool) : Bool :=
  match c with
  | .checking => true
  | .empty => start
  | .failed => start
  | _ => false

/-- The stop action of one cluster. -/
def State.stopOne (s : State) (k : Nat) : State :=
  let c := s.cluster k
  match c.state with
  | .running => s.setCluster k { c with stopNext := true }
  | .failed => s.setCluster k { c with emptyNext := true }
  | _ => s

/-- STOP_CLUSTER: the answer, or the mask of the clusters whose checks a start action begins. -/
def State.opStop (s : State) (mask : Word32) (action : Nat) : State × OpAns × Word32 :=
  let start := decide (action = 1)
  let ks := maskClusters mask
  if 1 < action then (s, .nak Nak.badValue, 0)
  else if s.boot.phase ≠ .loaded ∧ s.running = false then (s, .nak Nak.badState, 0)
  else match ks.find? (fun k => (s.cluster k).state.refuses start) with
    | some k => (s, ⟨Nak.badState, k, []⟩, 0)
    | none =>
      if start = false then (ks.foldl (fun x k => x.stopOne k) s, .ack, 0)
      else if s.running = false then (s, .ack, 0)
      else
        let go := ks.filter (fun k => (s.cluster k).state == .stopped)
        (go.foldl (fun x k => x.setCluster k { x.cluster k with state := .checking }) s, .ack,
          BitVec.ofNat 32 ((go.map (fun k => 2 ^ k)).sum))

/-! ### LOAD_IMAGE (R86, R349) -/

/-- The staging buffer is emptied and the segment refused. -/
def State.imageSeq (s : State) : State × OpAns := ({ s with dcp := { s.dcp with staging := none } }, .nak Nak.imageSeq)

/-- A segment is staged; the one that completes the image loads it. -/
def State.stage (s : State) (g : Staging) : State × OpAns :=
  if g.total < g.bytes.length then s.imageSeq
  else if g.bytes.length < g.total then ({ s with dcp := { s.dcp with staging := some g } }, .ack)
  else
    let r := ({ s with dcp := { s.dcp with staging := none } }).loadImage g.kind g.mask g.bytes
    (r.1, ⟨r.2.1, r.2.2, []⟩)

/-- LOAD_IMAGE. A TOTAL of 0 is no image, and the operation then does nothing (R10). -/
def State.opLoad (s : State) (p : List Byte) : State × OpAns :=
  let kind := payNat p 0 1
  let mask := BitVec.ofNat 32 (payNat p 4 4)
  let total := payNat p 8 4
  let off := payNat p 12 4
  let seg := p.drop 16
  if payNat p 1 3 ≠ 0 then (s, .nak Nak.badValue)
  else if total = 0 then (s, .ack)
  else if off = 0 then (if kind = 1 ∨ kind = 2 then s.stage ⟨kind, mask, total, seg⟩ else (s, .nak Nak.badValue))
  else match s.dcp.staging with
    | none => s.imageSeq
    | some g =>
      if g.bytes.length = off ∧ g.kind = kind ∧ g.mask = mask ∧ g.total = total then
        s.stage { g with bytes := g.bytes ++ seg }
      else s.imageSeq

/-! ### An accepted operation runs -/

/-- What an operation does at once: its answer, or what it waits for. -/
inductive OpOut where
  | done (a : OpAns)
  | wait (w : Wait)
  deriving DecidableEq, Repr

/-- An operation past its checks. -/
def State.doOp (s : State) (op : DcpOp) : State × OpOut :=
  let i := op.hdr.session.val
  let p := op.payload
  let lock := bit op.hdr.flags 0
  let unlock := bit op.hdr.flags 1
  let addr := payNat p 0 8
  let ca := payNat p 0 4
  match op.opcode with
  | 2 => let r := s.opRead i ca; (r.1, .done r.2)
  | 3 => let r := s.opWrite ca (BitVec.ofNat 32 (payNat p 4 4)); (r.1, .done r.2)
  | 4 => let r := s.opRmw i ca (BitVec.ofNat 32 (payNat p 4 4)) (BitVec.ofNat 32 (payNat p 8 4)); (r.1, .done r.2)
  | 5 => let r := s.bulkRead lock unlock (s.granted i) addr (payNat p 8 4); (r.1, .done ⟨r.2.1, 0, r.2.2⟩)
  | 6 => let r := s.bulkWrite lock unlock addr (p.drop 12); (r.1, .done (.nak r.2))
  | 7 => (s, .wait .fence)
  | 8 => if s.boot.phase = .loaded then (s, .wait .enable) else (s, .done (.nak Nak.badState))
  | 9 => if s.running then (s, .wait .disable) else (s, .done (.nak Nak.badState))
  | 10 =>
    if payNat p 5 3 ≠ 0 then (s, .done (.nak Nak.badValue))
    else
      let r := s.opStop (BitVec.ofNat 32 ca) (payNat p 4 1)
      (r.1, if r.2.2 = 0 then .done r.2.1 else .wait (.start r.2.2 none))
  | 11 => let r := s.opLoad p; (r.1, .done r.2)
  | 12 => (s.nextFree, .done ⟨0, 0, s.fieldRecord⟩)
  | 13 =>
    if ca ≤ s.dcp.epoch.toNat then (s, .done (.nak Nak.staleEpoch)) else (s, .wait (.takeover (BitVec.ofNat 32 ca)))
  | _ => (s, .done (.nak Nak.badOpcode))

/-- The response to a write of DCP_ETYPE leaves with the old DCP_TYPE (R338). -/
def State.ackType (s : State) (op : DcpOp) : Option (BitVec 16) :=
  if (op.opcode = 3 ∨ op.opcode = 4) ∧ payNat op.payload 0 4 = Reg.dcpEtype then
    some (BitVec.ofNat 16 (s.cfgF Reg.dcpEtype 31 16)) else none

/-- Nothing that an operation waits for under R35 is outstanding: for a FENCE the earlier operations of its session, for
the others those of every session. -/
def State.clearBefore (s : State) (w : Wait) (session : Nat) : Bool :=
  if w = .fence then !(s.session session).fresh && !s.dcp.waiting.any (fun y => decide (y.hdr.session.val = session))
  else (List.range 16).all (fun i => !(s.session i).fresh) && s.dcp.waiting.isEmpty && s.dcp.accepted.isEmpty

/-- An accepted operation runs. -/
def State.runOp (s : State) (op : DcpOp) : State :=
  let r := s.opRefusal op
  if r ≠ 0 then (s.noteStale r).complete op.hdr op.no false none (.nak r)
  else
    let x := s.doOp op
    match x.2 with
    | .done a => (x.1.noteStale a.status).complete op.hdr op.no (opEffect op.opcode && decide (a.status = 0)) (s.ackType op) a
    | .wait w =>
      { x.1 with dcp := { x.1.dcp with
          waiting := x.1.dcp.waiting ++ [⟨op.hdr, w, op.no, x.1.clearBefore w op.hdr.session.val⟩] } }

/-- A fence of a session has not been answered. -/
def State.fenced (s : State) (i : Nat) : Bool :=
  s.dcp.waiting.any (fun w => decide (w.hdr.session.val = i) && (match w.what with
    | .fence => true
    | .drain _ _ => true
    | _ => false))

/-- An operation must wait for one accepted before it that is held: one of its session, or of its node (R31, R35). -/
def DcpOp.behind (o y : DcpOp) : Bool := decide (y.hdr.session = o.hdr.session) || (y.node.isSome && decide (y.node = o.node))

/-- A register operation is for the block that a gate request in progress names: it is held until that ends (R393). -/
def State.gateHolds (s : State) (o : DcpOp) : Bool :=
  match s.power.gate with
  | none => false
  | some (sel, _) =>
    s.gateOp && decide (2 ≤ o.opcode) && decide (o.opcode ≤ 4) && o.node == some (sel / 256) &&
      decide (caBlock (payNat o.payload 0 4) = sel % 256)

/-- An operation is held: its session waits for a FENCE, its block for a gate request, or one before it is held. -/
def State.holds (s : State) (o : DcpOp) : Bool :=
  s.fenced o.hdr.session.val || s.gateHolds o || s.dcp.accepted.any (fun y => decide (y.no < o.no) && o.behind y)

/-- The operations held run as they become free, in the order of acceptance (R31, R35). -/
def State.runHeld (s : State) : Nat → State
  | 0 => s
  | n + 1 =>
    match s.dcp.accepted.find? (fun o => !s.holds o) with
    | none => s
    | some op =>
      (({ s with dcp := { s.dcp with accepted := s.dcp.accepted.filter (fun o => decide (o.no ≠ op.no)) } }).runOp op).runHeld n

/-! ### ENABLE and TAKEOVER act (R345, R403) -/

/-- A waiting ENABLE or TAKEOVER whose turn has come. An ENABLE whose check runs has had its turn. -/
def State.canAct (s : State) (w : Waiting) : Bool :=
  (match w.what with
    | .enable => s.boot.phase != .checking
    | .takeover _ => true
    | _ => false) &&
  w.passed && s.dcp.waiting.all (fun y => decide (w.no ≤ y.no)) && s.dcp.accepted.all (fun y => decide (w.no < y.no))

/-- The warden as a payload names it: valid in bit 7, session in bits [3:0]. -/
def wardenByte (w : Option Nat) : Byte := w.elim 0 (fun i => BitVec.ofNat 8 (128 + i))

/-- TAKEOVER acts: the epoch is judged again (log 60). -/
def State.takeOver (s : State) (w : Waiting) (e : Word32) : State :=
  let i := w.hdr.session.val
  if (s.session i).isOpen = false then
    { s with dcp := { s.dcp with waiting := s.dcp.waiting.filter (fun y => decide (y.no ≠ w.no)) } }
  else if e.toNat ≤ s.dcp.epoch.toNat then (s.noteStale Nak.staleEpoch).finish w (.nak Nak.staleEpoch)
  else
    let last := s.dcp.warden.elim 0 (fun j => (s.session j).h)
    let old := s.dcp.warden
    let s1 : State := { s with dcp := { s.dcp with warden := some i, epoch := e } }
    let s2 := (s1.setEv Reg.dcpEvents 1).notice 0x0071 ([BitVec.ofNat 8 i, 0, 0, 0] ++ beBytes 4 e.toNat)
    s2.finish w ⟨0, 0, [wardenByte old, 0, 0, 0] ++ beBytes 4 last.toNat⟩

/-- An ENABLE or a TAKEOVER acts. -/
def State.act (s : State) (w : Waiting) : State :=
  match w.what with
  | .enable =>
    if s.boot.phase = .loaded then { s with boot := { s.boot with phase := .checking }, dcp := { s.dcp with check := none } }
    else s.finish w (.nak Nak.badState)
  | .takeover e => s.takeOver w e
  | _ => s

/-- Every ENABLE and TAKEOVER whose turn has come acts. -/
def State.actGo (s : State) : Nat → State
  | 0 => s
  | n + 1 =>
    match s.dcp.waiting.find? s.canAct with
    | none => s
    | some w => (s.act w).actGo n

/-- The same, with enough turns. -/
def State.actWaiting (s : State) : State := s.actGo (s.dcp.waiting.length + 1)

/-! ### HELLO (R344, R345, R397) -/

/-- The version agreed: the highest within both ranges. -/
def helloVersion (lo hi : Nat) : Option Nat := if max lo 2 ≤ min hi 3 then some (min hi 3) else none

/-- Why a HELLO is refused; 0 where it is not. The session's own warden role counts as closed (log 60). -/
def State.helloRefusal (s : State) (op : DcpOp) : Nat :=
  let p := op.payload
  let role := payNat p 2 1
  let held := match s.dcp.warden with
    | none => false
    | some j => decide (j ≠ op.hdr.session.val)
  if opFlagsOk 1 op.hdr.flags.toNat = false then Nak.badValue
  else if p.length ≠ 4 then Nak.badLength
  else match helloVersion (payNat p 0 1) (payNat p 1 1) with
    | none => Nak.badVersion
    | some ver =>
      if 2 < role ∨ payNat p 3 1 ≠ 0 then Nak.badValue
      else if role ≠ 2 then 0
      else if held then Nak.wardenHeld
      else if ver = 3 ∧ op.hdr.epoch.toNat ≤ s.dcp.epoch.toNat then Nak.staleEpoch
      else 0

/-- What a session had under way is forgotten. -/
def State.closeSession (s : State) (i : Nat) : State :=
  let s1 := s.setSession i Session.closed
  let s2 := s1.setReg Reg.dcpGrant (setBits (s1.reg Reg.dcpGrant) i i 0)
  { s2 with dcp := { s2.dcp with
      warden := if s2.dcp.warden = some i then none else s2.dcp.warden
      accepted := s2.dcp.accepted.filter (fun o => decide (o.hdr.session.val ≠ i))
      waiting := s2.dcp.waiting.filter (fun w => decide (w.hdr.session.val ≠ i) || (match w.what with
        | .enable => true
        | .disable => true
        | .start _ _ => true
        | _ => false)) } }

/-- HELLO executes whether or not its session is open; a refused one changes nothing. -/
def State.hello (s : State) (op : DcpOp) : State :=
  let r := s.helloRefusal op
  let i := op.hdr.session.val
  let p := op.payload
  if r ≠ 0 then (s.noteStale r).refuseOp op.hdr r
  else
    let ver := (helloVersion (payNat p 0 1) (payNat p 1 1)).getD 3
    let role := payNat p 2 1
    let s1 := s.closeSession i
    let s2 := if role = 0 then s1
      else s1.setSession i { Session.closed with isOpen := true, ver := ver, h := op.hdr.seq }
    let s3 : State := if role = 2 then
        { s2 with
          dcp := { s2.dcp with warden := some i, epoch := if ver = 3 then op.hdr.epoch else s2.dcp.epoch }
          boot := { s2.boot with phase := if s2.boot.phase = .hostUp then .loaded else s2.boot.phase } }
      else s2
    let body := [2, 3, BitVec.ofNat 8 ver, BitVec.ofNat 8 role] ++ beBytes 4 s3.dcp.epoch.toNat ++ [wardenByte s3.dcp.warden, 0, 0, 0]
    (s3.sendResp { hdr := op.hdr, status := 0, detail := 0, payload := body, etype := none }).actWaiting

/-! ### Acceptance (R343, R344, R347) -/

/-- An operation is discarded under R343. -/
def State.badOps (s : State) (n : Nat) : State := (s.bump Reg.dcpBadFrame n).setEv Reg.dcpEvents 4

/-- A new operation of an open session: H moves, and it runs, or waits behind a FENCE of its session (R35), or behind an operation
of its node that does (R31). -/
def State.accept (s : State) (op : DcpOp) : State :=
  let h := op.hdr
  let i := h.session.val
  let x := s.session i
  let no := s.dcp.accNo + 1
  let s1 := s.setSession i { x with h := h.seq, prog := x.prog ++ [⟨h.seq, h.hp.val, h.mac⟩] }
  let s2 : State := { s1 with dcp := { s1.dcp with accNo := no } }
  let o := { op with no := no }
  if s2.holds o then
    { s2 with dcp := { s2.dcp with accepted := s2.dcp.accepted ++ [o] } }
  else s2.runOp o

/-- An operation of an open session is judged by its sequence number (R347). -/
def State.sequence (s : State) (op : DcpOp) : State :=
  let h := op.hdr
  let i := h.session.val
  let x := s.session i
  let d := (h.seq - x.h).toNat
  if 0 < d ∧ d < 2 ^ 31 then
    if 64 ≤ x.prog.length then s.refuseOp h Nak.busy else s.accept op
  else match x.cache.find? (fun r => decide (r.hdr.seq = h.seq)) with
    | some r => s.sendResp { r with hdr := { r.hdr with hp := h.hp, mac := h.mac }, etype := none }
    | none =>
      if x.prog.any (fun o => decide (o.seq = h.seq)) then
        s.setSession i { x with
          prog := x.prog.map (fun o => if o.seq = h.seq then { o with hp := h.hp.val, mac := h.mac } else o) }
      else s.refuseOp h Nak.seqOld

/-- DCP is served from HOST_UP onward, on a host port that is UP (R397). -/
def State.dcpServes (s : State) (hp : Nat) : Bool :=
  decide (5 ≤ s.boot.phase.code) && decide (s.boot.phase.code ≤ 9) && s.portSt (512 + hp) == .up

/-- The engine takes an operation. -/
def State.takeOp (s : State) (op : DcpOp) : State :=
  if 8 ≤ op.hdr.flags.toNat then s.badOps 1
  else if op.opcode = 1 then s.hello op
  else if (s.session op.hdr.session.val).isOpen = false then s.refuseOp op.hdr Nak.noSession
  else (s.sequence op).actWaiting

/-- One operation arrives by itself. -/
def State.opIn (s : State) (h : OpHdr) (opcode : Nat) (payload : List Byte) : State :=
  if s.dcpServes h.hp.val then s.takeOp ⟨h, opcode, payload, 0⟩ else s

end Sys2Proof.Machine
end

