-- ==== Sys2Proof/Machine/Dcp.lean ====
section
/-! DEFINITION. The commands of the control protocol: operations, frames, fences, the enable check, the drain, responses,
notices and failover (chapter 13; R35, R83, R90, R185, R186, R403 to R408). -/

namespace Sys2Proof.Machine

/-! ### Operations (Table 13.2) -/

/-- HELLO (R344, R345). -/
def execHello (h : OpHdr) (minVer maxVer role : BitVec 8) (s : State) : Res := .next (s.opIn h 1 [minVer, maxVer, role, 0])

/-- READ (R348). -/
def execRead (h : OpHdr) (ca : Word32) (s : State) : Res := .next (s.opIn h 2 (beBytes 4 ca.toNat))

/-- WRITE (R348). -/
def execWrite (h : OpHdr) (ca value : Word32) (s : State) : Res :=
  .next (s.opIn h 3 (beBytes 4 ca.toNat ++ beBytes 4 value.toNat))

/-- RMW (R348). -/
def execRmw (h : OpHdr) (ca mask value : Word32) (s : State) : Res :=
  .next (s.opIn h 4 (beBytes 4 ca.toNat ++ beBytes 4 mask.toNat ++ beBytes 4 value.toNat))

/-- BULK_READ (R348). -/
def execBulkRead (h : OpHdr) (addr : Word64) (len : Word32) (s : State) : Res :=
  .next (s.opIn h 5 (beBytes 8 addr.toNat ++ beBytes 4 len.toNat))

/-- BULK_WRITE (R348). -/
def execBulkWrite (h : OpHdr) (addr : Word64) (len : Word32) (data : List Byte) (s : State) : Res :=
  .next (s.opIn h 6 (beBytes 8 addr.toNat ++ beBytes 4 len.toNat ++ data))

/-- FENCE (R35). -/
def execFence (h : OpHdr) (s : State) : Res := .next (s.opIn h 7 [])

/-- ENABLE (R403). -/
def execEnable (h : OpHdr) (s : State) : Res := .next (s.opIn h 8 [])

/-- DISABLE (R408). -/
def execDisable (h : OpHdr) (s : State) : Res := .next (s.opIn h 9 [])

/-- The payload of a STOP_CLUSTER. -/
def stopPayload (mask : Word32) (action : Byte) : List Byte := beBytes 4 mask.toNat ++ [action, 0, 0, 0]

/-- STOP_CLUSTER, stop action (R83, R92). -/
def execStopClusterStop (h : OpHdr) (mask : Word32) (s : State) : Res := .next (s.opIn h 10 (stopPayload mask 0))

/-- STOP_CLUSTER, start action (R90, R92). -/
def execStopClusterStart (h : OpHdr) (mask : Word32) (s : State) : Res := .next (s.opIn h 10 (stopPayload mask 1))

/-- LOAD_IMAGE (R86, R349). -/
def execLoadImage (h : OpHdr) (kind : BitVec 8) (mask total offset : Word32) (seg : List Byte) (s : State) : Res :=
  .next (s.opIn h 11 ([kind, 0, 0, 0] ++ beBytes 4 mask.toNat ++ beBytes 4 total.toNat ++ beBytes 4 offset.toNat ++ seg))

/-- FIELD_RECORD (R348, R420). -/
def execFieldRecord (h : OpHdr) (s : State) : Res := .next (s.opIn h 12 [])

/-- TAKEOVER (R345). -/
def execTakeover (h : OpHdr) (newEpoch : Word32) (s : State) : Res := .next (s.opIn h 13 (beBytes 4 newEpoch.toNat))

/-! ### Fences (R35, R185, R186) -/

/-- The waiting operation of a session with a sequence number. -/
def State.waitingOf (s : State) (session : Nat) (seq : Word32) : Option Waiting :=
  s.dcp.waiting.find? (fun w => decide (w.hdr.session.val = session) && decide (w.hdr.seq = seq))

/-- After a FENCE is answered, what was held behind it begins, and what waited may act. -/
def State.afterFence (s : State) : State := (s.runHeld (s.dcp.accepted.length + 1)).actWaiting

/-- FENCE_COMPLETE (R35): the earlier operations of the session and their boundary have passed. One with DRAIN begins its
drain. -/
def execFenceComplete (session : Fin 16) (seq : Word32) (s : State) : Res :=
  match s.waitingOf session.val seq with
  | none => .next s
  | some w =>
    let first := s.dcp.waiting.all (fun y => decide (y.hdr.session ≠ session) || decide (w.no ≤ y.no))
    if w.what = .fence ∧ first = true ∧ w.passed = true then
      if bit w.hdr.flags 2 then
        let n := s.dcp.drainNo + 1
        .next { s with dcp := { s.dcp with
          drainNo := n
          waiting := s.dcp.waiting.map (fun y => if y.no = w.no then { y with what := .drain s.now n } else y) } }
      else .next ((s.finish w .ack).afterFence)
    else .next s

/-- A packet carries the mark of drain n. -/
def Pkt.marked (p : Pkt) (n : Nat) : Bool := decide (p.drain < n)

/-- A learn request committed before drain n began is still to be handled. -/
def State.learnsOf (s : State) (n : Nat) : Bool :=
  s.wings.any (fun x => (x.2.learnQ ++ x.2.retry).any (fun l => decide (l.drain < n)))

/-- FENCE_DRAIN_COMPLETE (R185). -/
def execFenceDrainComplete (session : Fin 16) (seq : Word32) (s : State) : Res :=
  match s.waitingOf session.val seq with
  | none => .next s
  | some w =>
    match w.what with
    | .drain _ n =>
      if s.allPkts.any (fun p => p.marked n) || s.learnsOf n then .next s
      else .next ((s.finish w .ack).afterFence)
    | _ => .next s

/-- The queues that still hold marked packets, as FENCE_TIMEOUT names them (R348): egress queues, then VOQs. -/
def State.markedQueues (s : State) (n : Nat) : List Nat :=
  (s.tm.queues.filter (fun x => x.2.pkts.any (fun p => p.marked n))).map (fun x => x.1) ++
  (s.tm.voq.filter (fun x => x.2.pkts.any (fun p => p.marked n))).map (fun x => 2 ^ 31 + x.1)

/-- FENCE_TIMEOUT (R186, R348). A limit of 0 is none (R411). -/
def execFenceTimeout (session : Fin 16) (seq : Word32) (s : State) : Res :=
  let lim := (s.cfg Reg.dcpQmaxSojourn).toNat
  match s.waitingOf session.val seq with
  | none => .next s
  | some w =>
    match w.what with
    | .drain since n =>
      if lim ≠ 0 ∧ since + lim ≤ s.now then
        let qs := s.markedQueues n
        .next ((s.finish w ⟨Nak.fenceTimeout, qs.length, (qs.take 256).flatMap (beBytes 4)⟩).afterFence)
      else .next s
    | _ => .next s

/-! ### The checks end (R90, R404) -/

/-- CHECK_COMPLETE (R404): a refusal answers ENABLE at once, and the next boundary moves the phase. A safe stop abandons the check
(R401). -/
def execCheckComplete (s : State) : Res :=
  if s.boot.phase ≠ .checking ∨ s.dcp.check.isSome ∨ s.boot.stop.isSome then .next s
  else
    let r := s.enableRefusal
    let s1 := s.noteBudget.noteCheckResult r
    match r with
    | none => .next { s1 with dcp := { s1.dcp with check := some (0, 0) } }
    | some x =>
      let s2 := match s1.dcp.waiting.find? (fun w => w.what == Wait.enable) with
        | some w => s1.finish w (.refused x.1 x.2)
        | none => s1
      .next { s2 with dcp := { s2.dcp with check := some x } }

/-- The start action that waits for a cluster's checks. -/
def State.startOf (s : State) (k : Nat) : Option Waiting :=
  s.dcp.waiting.find? (fun w => match w.what with
    | .start mask _ => bit mask k
    | _ => false)

/-- The lower-numbered of two refused clusters. -/
def lowerBad (a b : Option (Nat × Nat × Nat)) : Option (Nat × Nat × Nat) :=
  match a, b with
  | some x, some y => if x.1 ≤ y.1 then some x else some y
  | none, y => y
  | x, none => x

/-- The checks of one cluster of a start action have ended; with the last of them the action is answered (R90, R404). -/
def State.startDone (s : State) (w : Waiting) (k : Nat) (bad : Option (Nat × Nat × Nat)) : State :=
  match w.what with
  | .start mask b =>
    let m := setBits mask k k 0
    let x := lowerBad b bad
    if m = 0 then
      match x with
      | none => (s.noteCheckResult none).finish w .ack
      | some y => (s.noteCheckResult (some y.2)).finish w (.refused y.2.1 y.2.2)
    else { s with dcp := { s.dcp with
        waiting := s.dcp.waiting.map (fun y => if y.no = w.no then { y with what := .start m x } else y) } }
  | _ => s

/-- CLUSTER_CHECK_DONE (R90). A cluster that failed meanwhile counts as refused with reason 0 (log 60). -/
def execClusterCheckDone (cluster : Fin 32) (s : State) : Res :=
  let k := cluster.val
  match s.startOf k with
  | none => .next s
  | some w =>
    let c := s.cluster k
    if c.state = .checking then
      match s.startRefusal k with
      | none => .next ((s.setCluster k { c with runNext := true }).startDone w k none).actWaiting
      | some x => .next ((s.setCluster k { c with state := .stopped }).startDone w k (some (k, x.1, x.2))).actWaiting
    else .next (s.startDone w k (some (k, 0, 0))).actWaiting

/-! ### The drain of DISABLE (R408) -/

/-- Queues, VOQs, residue and admission FIFOs are all empty. -/
def State.drainEmpty (s : State) : Bool :=
  s.tm.queues.all (fun x => x.2.pkts.isEmpty) && s.tm.hostQ.all (fun x => x.2.isEmpty) &&
  s.tm.voq.all (fun x => x.2.pkts.isEmpty) && s.tm.residue.isEmpty && s.slices.all (fun x => x.2.fifo.isEmpty)

/-- Where each packet is counted that the drain leaves, by the site that holds it. -/
def State.leftSites (s : State) : List Nat :=
  s.slices.flatMap (fun x => (x.2.fifo ++ x.2.cip.map (fun j => j.pkt) ++ x.2.inj ++ x.2.recq ++ x.2.egress ++ x.2.done ++
    x.2.arrived).map (fun _ => x.1)) ++
  (s.core.transit.map (fun t => t.pkt) ++ s.core.waitHand).map (fun p => p.slice) ++
  s.tm.queues.flatMap (fun x => x.2.pkts.map (fun _ => x.1 / 32768)) ++
  s.tm.voq.flatMap (fun x => x.2.pkts.map (fun _ => x.1 / 4096)) ++
  s.ports.flatMap (fun x => (x.2.toCipher ++ x.2.wire).map (fun _ => if x.1 < 512 then x.1 / 64 else hubSite)) ++
  (s.tm.hostQ.flatMap (fun x => x.2) ++ s.tm.residue.map (fun c => c.pkt) ++ s.tm.jobs.map (fun j => j.pkt) ++
    s.tm.mirJobs.map (fun j => j.pkt)).map (fun _ => hubSite)

/-- Every packet left is dropped with PORT_DOWN; runs still bound are aborted with HOST_STOP. Posted writes of runs that
retired are made. -/
def State.dropLeft (s : State) : State :=
  let ths := s.threads.map (fun x => x.1)
  let s1 := ((s.abortRuns ths 0x36).abortBindings ths 0x36).drainPosts
  (s1.leftSites.foldl (fun x i => x.countDrop i 0x56) s1).clearFlow

/-- In the first tick in which everything is empty, or DRAIN_TICKS after the first, what is left is dropped (R408). -/
def State.drainTick (s : State) : State :=
  if s.boot.phase = .disabling ∧ s.dcp.drained = false ∧
      (s.drainEmpty = true ∨ s.dcp.drainAt + s.cfgF Reg.hubDisable 19 0 ≤ s.now) then
    let s1 := s.dropLeft
    { s1 with dcp := { s1.dcp with drained := true } }
  else s

/-- DRAIN_END (R408). TICK_BOUNDARY finds the end where no command has told it. -/
def execDrainEnd (s : State) : Res := .next s.drainTick

/-! ### Frames (R337, R342, R343) -/

/-- The operations that the rest of a discarded frame spells, counted one by one. -/
def countOps : Nat → List Byte → Nat
  | 0, _ => 0
  | n + 1, b =>
    match b with
    | [] => 0
    | v :: _ =>
      let len := payNat b 10 2
      let full := 24 + (len + 3) / 4 * 4
      if v = 0 then 0 else if b.length < 24 + len then 1 else 1 + countOps n (b.drop full)

/-- Reserved bits that are zero in every request (Table 13.1). -/
def headClean (b : List Byte) : Bool :=
  decide (payNat b 1 1 % 16 = 0) && decide (payNat b 2 1 < 8) && decide (payNat b 8 2 = 0) && decide (payNat b 20 4 = 0)

/-- The operation at the start of a frame body. -/
def frameOp (hp : Fin 2) (mac : BitVec 48) (b : List Byte) : DcpOp :=
  { hdr := {
      hp := hp
      mac := mac
      session := Fin.ofNat 16 (payNat b 1 1 / 16)
      seq := BitVec.ofNat 32 (payNat b 4 4)
      version := BitVec.ofNat 8 (payNat b 0 1)
      flags := BitVec.ofNat 8 (payNat b 2 1)
      tag := BitVec.ofNat 32 (payNat b 12 4)
      epoch := BitVec.ofNat 32 (payNat b 16 4) }
    opcode := payNat b 3 1
    payload := slice0 b 24 (payNat b 10 2)
    no := 0 }

/-- The operations of a frame, at most n, and how many are discarded (R342, R343). -/
def readOps (hp : Fin 2) (mac : BitVec 48) : Nat → List Byte → List DcpOp × Nat
  | 0, b => ([], countOps (b.length + 1) b)
  | n + 1, b =>
    match b with
    | [] => ([], 0)
    | v :: _ =>
      let len := payNat b 10 2
      if v = 0 then ([], 0)
      else if b.length < 24 + len ∨ headClean b = false then ([], countOps (b.length + 1) b)
      else
        let r := readOps hp mac n (b.drop (24 + (len + 3) / 4 * 4))
        (frameOp hp mac b :: r.1, r.2)

/-- A DCP frame from a station, past the checks of R337. -/
def State.dcpFrame (s : State) (hp : Fin 2) (mac : BitVec 48) (body : List Byte) : State :=
  let s1 := s.bump (Reg.hpRxDcp hp.val) 1
  let s2 := s1.setHp hp.val { s1.hp hp.val with lastDcp := some s1.now }
  if s2.dcpServes hp.val = false then s2
  else
    let r := readOps hp mac 64 body
    let s3 := r.1.foldl (fun x op => x.takeOp op) s2
    if r.2 = 0 then s3 else s3.badOps r.2

/-- DCP_FRAME_RECEIVE (R342). -/
def execDcpFrameReceive (hp : Fin 2) (mac : BitVec 48) (body : List Byte) (s : State) : Res :=
  if s.portSt (512 + hp.val) = .up then .next (s.dcpFrame hp mac body) else .next s

/-- A frame that a host port may take: its length, its destination and its FCS (R337). -/
def State.hostTakes (s : State) (hp : Nat) (frame : List Byte) (fcsOk : Bool) : Bool :=
  let dst := slice0 frame 0 6
  fcsOk && decide (64 ≤ frame.length + 4) && decide (frame.length + 4 ≤ 16448) &&
  (decide (dst = s.macBytes (Reg.hpMacLo hp) (Reg.hpMacHi hp)) || decide (dst = List.replicate 6 0xFF))

/-- HOST_FRAME_RECEIVE (R337): a frame without its FCS. -/
def execHostFrameReceive (hp : Fin 2) (frame : List Byte) (fcsOk : Bool) (s : State) : Res :=
  let type := payNat frame 12 2
  if s.portSt (512 + hp.val) ≠ .up then .next s
  else if s.hostTakes hp.val frame fcsOk && decide (type = s.cfgF Reg.dcpEtype 31 16) then
    .next (s.dcpFrame hp (BitVec.ofNat 48 (payNat frame 6 6)) (frame.drop 14))
  else if s.hostTakes hp.val frame fcsOk && decide (type = s.cfgF Reg.dcpEtype 15 0) then
    .next (s.injectIn hp.val (frame.drop 14) s.eventDt).nextFree
  else .next (s.bump (Reg.hpRxDrop hp.val) 1)

/-! ### Responses and notices leave (R343, R351) -/

/-- A header of Table 13.1. -/
def dcpHead (version session flags opcode : Nat) (seq : Word32) (status len : Nat) (tag epoch detail : Word32) : List Byte :=
  [BitVec.ofNat 8 version, BitVec.ofNat 8 (session * 16), BitVec.ofNat 8 flags, BitVec.ofNat 8 opcode] ++
  beBytes 4 seq.toNat ++ beBytes 2 status ++ beBytes 2 len ++ beBytes 4 tag.toNat ++ beBytes 4 epoch.toNat ++
  beBytes 4 detail.toNat

/-- A payload padded to whole words. -/
def padWord (l : List Byte) : List Byte := l ++ List.replicate ((4 - l.length % 4) % 4) 0

/-- VERSION of a header that the manual gives none: 2 or 3. FREE VALUE (log 61). -/
def freeVersion (n : Nat) : Nat := 2 + (Config.freeWord n).toNat % 2

/-- A response as it leaves: it echoes its request, and carries the current epoch. -/
def respBytes (epoch : Word32) (free : Nat) (r : Resp) : List Byte :=
  let v := r.hdr.version.toNat
  dcpHead (if v = 2 ∨ v = 3 then v else freeVersion free) r.hdr.session.val r.hdr.flags.toNat
    (if r.status = 0 then 0x80 else 0x81) r.hdr.seq r.status r.payload.length r.hdr.tag epoch r.detail ++ padWord r.payload

/-- A notice as it leaves. VERSION, FLAGS, TAG and DETAIL are FREE VALUES (log 61). -/
def noticeBytes (epoch : Word32) (free : Nat) (n : Notice) : List Byte :=
  let w := (Config.freeWord (free + 1)).toNat
  dcpHead (freeVersion free) 0 ((Config.freeWord free).toNat / 2 % 8) 0x82 n.num n.type.toNat (8 + n.body.length)
    (BitVec.ofNat 32 (w / 2 ^ 32)) epoch (BitVec.ofNat 32 w) ++
  padWord (beBytes 4 n.tick.toNat ++ beBytes 4 n.ns.toNat ++ n.body)

/-- The responses of a list that fit one frame: at most n, within the room that is left. -/
def fitFrame (room : Nat) : Nat → List (Resp × List Byte) → List (Resp × List Byte)
  | 0, _ => []
  | _ + 1, [] => []
  | n + 1, x :: l => if x.2.length ≤ room then x :: fitFrame (room - x.2.length) n l else []

/-- A DCP frame leaves on a host port, ended by a header whose VERSION is 0 (R338, R342). -/
def State.sendDcp (s : State) (hp : Nat) (dst : List Byte) (etype : Nat) (ops : List Byte) : State :=
  let f := dst ++ s.macBytes (Reg.hpMacLo hp) (Reg.hpMacHi hp) ++ beBytes 2 etype ++ ops ++ List.replicate 24 0
  (s.emit (.host hp (padFrame f) false)).bump (Reg.hpTx hp) 1

/-- The EtherType a response leaves with (R338). -/
def State.respType (s : State) (r : Resp) : Nat := r.etype.elim (s.cfgF Reg.dcpEtype 31 16) (fun t => t.toNat)

/-- One frame of the responses that wait for a host port. -/
def State.sendResps (s : State) (hp : Nat) : State :=
  match s.dcp.resps.find? (fun r => decide (r.hdr.hp.val = hp)) with
  | none => s
  | some r0 =>
    let mine := s.dcp.resps.filter (fun r => decide (r.hdr.hp.val = hp))
    let run := mine.takeWhile (fun r => decide (r.hdr.mac = r0.hdr.mac) && decide (s.respType r = s.respType r0))
    let sent := fitFrame 16406 64 (run.map (fun r => (r, respBytes s.dcp.epoch s.free r)))
    let s1 : State := { s.nextFree with dcp := { s.dcp with
      resps := s.dcp.resps.filter (fun r => decide (r.hdr.hp.val ≠ hp)) ++ mine.drop sent.length } }
    s1.sendDcp hp (beBytes 6 r0.hdr.mac.toNat) (s.respType r0) (sent.flatMap (fun x => x.2))

/-- One frame of notices on the active host port; where there is room again, the count of those lost follows (R351). -/
def State.sendNotices (s : State) (hp : Nat) : State :=
  let l := s.dcp.notices.take 64
  if s.dcp.active ≠ hp ∨ l = [] then s
  else
    let s1 := s.latchAlert
    let bytes := ((List.range l.length).zip l).flatMap (fun x => noticeBytes s.dcp.epoch (s.free + 2 * x.1) x.2)
    let s2 : State := { s1 with
      free := s1.free + 2 * l.length
      dcp := { s1.dcp with
        notices := s1.dcp.notices.drop 64
        sentLog := (s1.dcp.sentLog ++ l).drop ((s1.dcp.sentLog.length + l.length) - 64) } }
    let s3 := s2.sendDcp hp (s2.macBytes (Reg.hpPeerLo hp) (Reg.hpPeerHi hp)) (s2.cfgF Reg.dcpEtype 31 16) bytes
    if s3.dcp.lostNow = 0 then s3
    else
      let n := s3.dcp.lostNow
      let s4 : State := { s3 with dcp := { s3.dcp with lostNow := 0 } }
      s4.notice 0x0072 (beBytes 4 n)

/-- DCP_RESPONSE_SEND (R341, R343): what waits for a port that is not UP is discarded; it stays in the session cache. -/
def execDcpResponseSend (hp : Fin 2) (s : State) : Res :=
  if s.portSt (512 + hp.val) = .up then .next ((s.sendResps hp.val).sendNotices hp.val)
  else .next { s with dcp := { s.dcp with resps := s.dcp.resps.filter (fun r => decide (r.hdr.hp ≠ hp)) } }

/-- The length of a notice's body (Table 13.4). -/
def noticeLen (type : Nat) : Option Nat :=
  if 1 ≤ type ∧ type ≤ 4 then some 72
  else if 0x10 ≤ type ∧ type ≤ 0x12 then some 8
  else if type = 0x20 ∨ type = 0x50 then some 0
  else if 0x21 ≤ type ∧ type ≤ 0x23 then some 4
  else if type = 0x30 ∨ type = 0x31 ∨ type = 0x40 then some 12
  else if type = 0x41 ∨ type = 0x60 ∨ type = 0x71 then some 8
  else if type = 0x70 ∨ type = 0x72 then some 4
  else none

/-- NOTICE (R351): the device generates a notice of Table 13.4. -/
def execNotice (type : BitVec 16) (body : List Byte) (dt : Word64) (s : State) : Res :=
  if noticeLen type.toNat = some body.length then .next (s.latchAlert.noticeAt type.toNat (nsOf (s.oAt dt)) body)
  else .next s

/-! ### Failover (R340) -/

/-- Why the device fails over now: 0 link, 1 keepalive; none where it does not. -/
def State.failCause (s : State) : Option Nat :=
  let a := s.dcp.active
  if s.cfgB Reg.dcpHostport 1 = false ∨ s.portSt (512 + (1 - a)) ≠ .up then none
  else if s.portSt (512 + a) ≠ .up then some 0
  else if s.cfgF Reg.dcpKeepalive 15 0 ≠ 0 ∧ s.hpLive a = false then some 1
  else none

/-- Another host port becomes active; DCP_HOSTPORT shows it. What stands in the class queues of the old one is dropped where that
is not UP (R341). -/
def State.switchHost (s : State) (a cause : Nat) (ns : Word32) : State :=
  let s1 : State := { s with
    regs := SMap.set (regDefault Reg.dcpHostport) s.regs Reg.dcpHostport (setBits (s.reg Reg.dcpHostport) 0 0 a)
    dp := SMap.set (regDefault Reg.dcpHostport) s.dp Reg.dcpHostport (setBits (s.cfg Reg.dcpHostport) 0 0 a)
    dcp := { s.dcp with active := a } }
  let s2 := if s.portSt (512 + s.dcp.active) = .up then s1 else s1.hostQDrop s.dcp.active
  (s2.setEv Reg.dcpEvents 0).noticeAt 0x0070 ns [BitVec.ofNat 8 a, BitVec.ofNat 8 cause, 0, 0]

/-- The device fails over at the next boundary for a cause. -/
def State.failDue (s : State) (c : Nat) : State := { s with dcp := { s.dcp with failTo := some c } }

/-- KEEPALIVE_EXPIRE (R340): the active host port is UP and no longer live; the failover falls at the next boundary. -/
def execKeepaliveExpire (s : State) : Res := if s.failCause = some 1 then .next (s.failDue 1) else .next s

/-- FAILOVER to a host port (R340), for either cause: it falls at the next boundary. The device fails over to the port that is not
active only. TICK_BOUNDARY finds the cause where no command has told it. -/
def execFailover (hp : Fin 2) (s : State) : Res :=
  match s.failCause with
  | some c => if hp.val = s.dcp.active then .next s else .next (s.failDue c)
  | none => .next s

end Sys2Proof.Machine
end

