-- ==== Sys2Proof/Machine/DinumAlu.lean ====
section
/-! DEFINITION. Arithmetic and bit words (R114 to R116, Table 4.4) and NOP (R104). -/

namespace Sys2Proof.Machine

/-- Write a result with Z and N from all its 64 bits, C and V as given (R107). -/
def Thread.result (th : Thread) (a : Operand) (r : Word64) (c v : Bool) : Thread := ((writeOp th r a).setZN r).setCV c v

/-- ADD. -/
def aluAdd (a b c : Operand) (th : Thread) : Thread :=
  let x := readOp th b
  let y := readOp th c
  th.result a (x + y) (addCarry x y) (addOverflow x y)

/-- SUB. -/
def aluSub (a b c : Operand) (th : Thread) : Thread :=
  let x := readOp th b
  let y := readOp th c
  th.result a (x - y) (subCarry x y) (subOverflow x y)

/-- CMP: the flags of SUB B, C. -/
def aluCmp (b c : Operand) (th : Thread) : Thread :=
  let x := readOp th b
  let y := readOp th c
  (th.setZN (x - y)).setCV (subCarry x y) (subOverflow x y)

/-- AND, OR and XOR: C and V cleared. -/
def aluLogic (f : Word64 → Word64 → Word64) (a b c : Operand) (th : Thread) : Thread :=
  th.result a (f (readOp th b) (readOp th c)) false false

/-- SHL by C mod 64; the C flag is the last bit shifted out. -/
def aluShl (a b c : Operand) (th : Thread) : Thread :=
  let x := readOp th b
  let n := (readOp th c).toNat % 64
  th.result a (x <<< n) (decide (n ≠ 0) && bit x (64 - n)) false

/-- SHR by C mod 64; the C flag is the last bit shifted out. -/
def aluShr (a b c : Operand) (th : Thread) : Thread :=
  let x := readOp th b
  let n := (readOp th c).toNat % 64
  th.result a (x >>> n) (decide (n ≠ 0) && bit x (n - 1)) false

/-- ROT right by C mod 64: Z and N only. -/
def aluRot (a b c : Operand) (th : Thread) : Thread :=
  let r := rotR (readOp th b) (readOp th c).toNat
  (writeOp th r a).setZN r

/-- MIN. -/
def aluMin (a b c : Operand) (th : Thread) : Thread :=
  let x := readOp th b
  let y := readOp th c
  writeOp th (if x.toNat ≤ y.toNat then x else y) a

/-- MAX. -/
def aluMax (a b c : Operand) (th : Thread) : Thread :=
  let x := readOp th b
  let y := readOp th c
  writeOp th (if x.toNat ≤ y.toNat then y else x) a

/-- MOV. -/
def aluMov (a b : Operand) (th : Thread) : Thread := writeOp th (readOp th b) a

/-- SEL: B if the condition holds, else C. -/
def aluSel (p : BitVec 4) (a b c : Operand) (th : Thread) : Thread :=
  writeOp th (if predHolds th p then readOp th b else readOp th c) a

/-- The lsb that the immediate of BFX and BFI gives. -/
def bfLsb (c : BitVec 12) : Nat := c.toNat / 64

/-- The mask of width ones that the immediate of BFX and BFI gives. -/
def bfMask (c : BitVec 12) : Word64 := BitVec.ofNat 64 (2 ^ (c.toNat % 64 + 1) - 1)

/-- BFX. -/
def aluBfx (a b : Operand) (c : BitVec 12) (th : Thread) : Thread :=
  let r := (readOp th b >>> bfLsb c) &&& bfMask c
  (writeOp th r a).setZN r

/-- BFI. -/
def aluBfi (a b : Operand) (c : BitVec 12) (th : Thread) : Thread :=
  let m := bfMask c <<< bfLsb c
  let r := (readOp th a &&& ~~~m) ||| ((readOp th b <<< bfLsb c) &&& m)
  (writeOp th r a).setZN r

/-- Write a count with Z only. -/
def Thread.countZ (th : Thread) (a : Operand) (r : Word64) : Thread := { writeOp th r a with z := decide (r = 0) }

/-- POPC. -/
def aluPopc (a b : Operand) (th : Thread) : Thread := th.countZ a (BitVec.ofNat 64 (popCount (readOp th b)))

/-- CLZ. -/
def aluClz (a b : Operand) (th : Thread) : Thread := th.countZ a (BitVec.ofNat 64 (leadingZeros (readOp th b)))

/-- HASH (R115): algorithm C[11], first key register C[10:6], length C[5:0]; a length of 0 leaves A unchanged. -/
def aluHash (a : Operand) (n : Fin 32) (c : BitVec 12) (th : Thread) : Thread :=
  let len := bits c 5 0
  let input := seqBytes th n len
  if len = 0 then th
  else if bit c 11 then
    writeOp th ((toeplitz (BitVec.ofNat 320 (seqNat th (Fin.ofNat 32 (bits c 10 6)) 5)) input).zeroExtend 64) a
  else writeOp th ((crc32 polyC input).zeroExtend 64) a

/-- CSUM (R116). The window holds at most 256 bytes, so bytes past the first 256 of the range add nothing. -/
def aluCsum (a b c : Operand) (th : Thread) : Thread :=
  let o := (readOp th b).toNat
  let n := min (readOp th c).toNat 256
  th.countZ a (BitVec.ofNat 64 (onesSum (readOp th a).toNat ((List.range n).map (fun k => winByte th (o + k)))))

/-- CSUMI (R116). -/
def aluCsumi (a b c : Operand) (th : Thread) : Thread :=
  th.countZ a (BitVec.ofNat 64 (csumUpdate (readOp th a).toNat (readOp th b).toNat (readOp th c).toNat))

/-- ADD (R114). -/
def execAdd (t : Tid) (p : BitVec 4) (a b c : Operand) (s : State) : Res := runLocal t ⟨0x001, p, a, b, c⟩ s (aluAdd a b c)

/-- SUB (R114). -/
def execSub (t : Tid) (p : BitVec 4) (a b c : Operand) (s : State) : Res := runLocal t ⟨0x002, p, a, b, c⟩ s (aluSub a b c)

/-- AND (R114). -/
def execAnd (t : Tid) (p : BitVec 4) (a b c : Operand) (s : State) : Res :=
  runLocal t ⟨0x003, p, a, b, c⟩ s (aluLogic (· &&& ·) a b c)

/-- OR (R114). -/
def execOr (t : Tid) (p : BitVec 4) (a b c : Operand) (s : State) : Res :=
  runLocal t ⟨0x004, p, a, b, c⟩ s (aluLogic (· ||| ·) a b c)

/-- XOR (R114). -/
def execXor (t : Tid) (p : BitVec 4) (a b c : Operand) (s : State) : Res :=
  runLocal t ⟨0x005, p, a, b, c⟩ s (aluLogic (· ^^^ ·) a b c)

/-- SHL (R114). -/
def execShl (t : Tid) (p : BitVec 4) (a b c : Operand) (s : State) : Res := runLocal t ⟨0x006, p, a, b, c⟩ s (aluShl a b c)

/-- SHR (R114). -/
def execShr (t : Tid) (p : BitVec 4) (a b c : Operand) (s : State) : Res := runLocal t ⟨0x007, p, a, b, c⟩ s (aluShr a b c)

/-- ROT (R114). -/
def execRot (t : Tid) (p : BitVec 4) (a b c : Operand) (s : State) : Res := runLocal t ⟨0x008, p, a, b, c⟩ s (aluRot a b c)

/-- MIN (R114). -/
def execMin (t : Tid) (p : BitVec 4) (a b c : Operand) (s : State) : Res := runLocal t ⟨0x009, p, a, b, c⟩ s (aluMin a b c)

/-- MAX (R114). -/
def execMax (t : Tid) (p : BitVec 4) (a b c : Operand) (s : State) : Res := runLocal t ⟨0x00A, p, a, b, c⟩ s (aluMax a b c)

/-- CMP (R114). -/
def execCmp (t : Tid) (p : BitVec 4) (b c : Operand) (s : State) : Res := runLocal t ⟨0x00B, p, .none, b, c⟩ s (aluCmp b c)

/-- MOV (R114). -/
def execMov (t : Tid) (p : BitVec 4) (a b : Operand) (s : State) : Res := runLocal t ⟨0x00C, p, a, b, .none⟩ s (aluMov a b)

/-- SEL (R106, R114). -/
def execSel (t : Tid) (p : BitVec 4) (a b c : Operand) (s : State) : Res :=
  runLocal t ⟨0x00D, p, a, b, c⟩ s (aluSel p a b c)

/-- BFX (R114). -/
def execBfx (t : Tid) (p : BitVec 4) (a b : Operand) (c : BitVec 12) (s : State) : Res :=
  runLocal t ⟨0x00E, p, a, b, .uimm c⟩ s (aluBfx a b c)

/-- BFI (R114). -/
def execBfi (t : Tid) (p : BitVec 4) (a b : Operand) (c : BitVec 12) (s : State) : Res :=
  runLocal t ⟨0x00F, p, a, b, .uimm c⟩ s (aluBfi a b c)

/-- POPC (R114). -/
def execPopc (t : Tid) (p : BitVec 4) (a b : Operand) (s : State) : Res := runLocal t ⟨0x010, p, a, b, .none⟩ s (aluPopc a b)

/-- CLZ (R114). -/
def execClz (t : Tid) (p : BitVec 4) (a b : Operand) (s : State) : Res := runLocal t ⟨0x011, p, a, b, .none⟩ s (aluClz a b)

/-- HASH (R115). -/
def execHash (t : Tid) (p : BitVec 4) (a : Operand) (n : Fin 32) (c : BitVec 12) (s : State) : Res :=
  runLocal t ⟨0x012, p, a, .reg n, .uimm c⟩ s (aluHash a n c)

/-- CSUM (R116). -/
def execCsum (t : Tid) (p : BitVec 4) (a b c : Operand) (s : State) : Res :=
  runLocal t ⟨0x013, p, a, b, c⟩ s (aluCsum a b c)

/-- CSUMI (R116). -/
def execCsumi (t : Tid) (p : BitVec 4) (a b c : Operand) (s : State) : Res :=
  runLocal t ⟨0x014, p, a, b, c⟩ s (aluCsumi a b c)

/-- NOP (R104). -/
def execNop (t : Tid) (p : BitVec 4) (s : State) : Res := runLocal t ⟨0x7FF, p, .none, .none, .none⟩ s (fun th => th)

end Sys2Proof.Machine
end

