-- ==== Sys2Proof/Machine/DinumFlow.lean ====
section
/-! DEFINITION. Flow control and packet fate (R127 to R130, Tables 4.7 and 4.8). -/

namespace Sys2Proof.Machine

/-- Continue at the word d beyond the issuing one. -/
def jump (t : Tid) (d : BitVec 12) (s : State) (th : Thread) : State × Thread :=
  (s, th.branch (s.thread t).pc (s.thread t).loop d)

/-- BR (R127). -/
def execBr (t : Tid) (d : BitVec 12) (s : State) : Res := runWord t ⟨0x300, 0, .none, .none, .disp d⟩ s (jump t d)

/-- BRC: branch if the condition holds, else the next word. -/
def jumpIf (t : Tid) (p : BitVec 4) (d : BitVec 12) (s : State) (th : Thread) : State × Thread :=
  if predHolds th p then jump t d s th else (s, th)

/-- BRC (R106, R127). -/
def execBrc (t : Tid) (p : BitVec 4) (d : BitVec 12) (s : State) : Res :=
  runWord t ⟨0x301, p, .none, .none, .disp d⟩ s (jumpIf t p d)

/-- LOOP: the body is entered for count passes; a count of 0, or LOOP gated false, continues after it. -/
def enterLoop (t : Tid) (p : BitVec 4) (count body : BitVec 12) (s : State) (th : Thread) : State × Thread :=
  let pc := (s.thread t).pc
  let after := pc + 1 + body.toNat
  if predHolds th p && decide (count ≠ 0) then
    (s, { th with pc := pc + 1, loop := some { first := pc + 1, after := after, left := count.toNat - 1 } })
  else (s, { th with pc := after })

/-- LOOP (R106, R128). -/
def execLoop (t : Tid) (p : BitVec 4) (count body : BitVec 12) (s : State) : Res :=
  runWord t ⟨0x302, p, .uimm count, .disp body, .none⟩ s (enterLoop t p count body)

/-- EXIT (R68). -/
def execExit (t : Tid) (p : BitVec 4) (s : State) : Res := runWord t ⟨0x310, p, .none, .none, .none⟩ s (retireWith .exit)

/-- ABORT: the run is aborted with PROGRAM_ABORT (R82). -/
def abortWord (t : Tid) (s : State) (th : Thread) : State × Thread :=
  let s1 := (s.setThread t th).abortRun (tidIdx t) 0x33
  (s1, s1.thread t)

/-- ABORT (R82, R127). -/
def execAbort (t : Tid) (p : BitVec 4) (s : State) : Res := runWord t ⟨0x311, p, .none, .none, .none⟩ s (abortWord t)

/-- FWD (R129). -/
def execFwd (t : Tid) (p : BitVec 4) (s : State) : Res := runWord t ⟨0x400, p, .none, .none, .none⟩ s (retireWith .fwd)

/-- DROP (R129). -/
def execDrop (t : Tid) (p : BitVec 4) (s : State) : Res := runWord t ⟨0x401, p, .none, .none, .none⟩ s (retireWith .drop)

/-- REPL (R129, R130). -/
def execRepl (t : Tid) (p : BitVec 4) (s : State) : Res := runWord t ⟨0x402, p, .none, .none, .none⟩ s (retireWith .repl)

/-- PUNT: with A present, PUNT_CODE := A[15:0] (R129). -/
def puntWord (a : Operand) (s : State) (th : Thread) : State × Thread :=
  let th1 := if a = .none then th else { th with slip := slipSet th.slip 0x48 4 ((readOp th a).toNat % 2 ^ 16) }
  retireWith .punt s th1

/-- PUNT (R129). -/
def execPunt (t : Tid) (p : BitVec 4) (a : Operand) (s : State) : Res := runWord t ⟨0x403, p, a, .none, .none⟩ s (puntWord a)

/-- RECIRC (R129, R130). -/
def execRecirc (t : Tid) (p : BitVec 4) (s : State) : Res :=
  runWord t ⟨0x404, p, .none, .none, .none⟩ s (retireWith .recirc)

/-- MIRROR: a copy for flow session A[4:0] (R129). -/
def execMirror (t : Tid) (p : BitVec 4) (a : Operand) (s : State) : Res :=
  runLocal t ⟨0x410, p, a, .none, .none⟩ s (fun th => th.append (.mirror ((readOp th a).toNat % 32)))

end Sys2Proof.Machine
end

