-- ==== Sys2Proof/Machine/DinumLookup.lean ====
section
/-! DEFINITION. Lookups and posted updates (R121 to R126, Table 4.6). -/

namespace Sys2Proof.Machine

/-- Issue a lookup into Li (R122, R123): Li is not valid and any lookup outstanding into it is discarded. -/
def lookupWord (t : Tid) (op : LkOp) (i : Fin 4) (b : Operand) (tbl : BitVec 8) (s : State) (th : Thread) :
    State × Thread :=
  let slice := sliceOf t.cluster.val
  let key := keyOf th b (dirKeyW (s.dirLive (slice / 2) tbl.toNat))
  let r := s.lookup op slice tbl.toNat key
  (r.1, { th with l := th.l.set i { th.l[i] with valid := false, issued := some (tbl.toNat, r.2), arrived := false } })

/-- The code of a lookup's outcome in the table counters (Table 14.1). -/
def LkOut.code : LkOut → Nat
  | .hit _ _ => 0 | .miss => 1 | .err => 2

/-- LKX (R164, R171). -/
def execLkx (t : Tid) (p : BitVec 4) (i : Fin 4) (b : Operand) (tbl : BitVec 8) (s : State) : Res :=
  runWord t ⟨0x200, p, .lookup i false, b, .table tbl⟩ s (lookupWord t .exact i b tbl)

/-- LKP (R168). -/
def execLkp (t : Tid) (p : BitVec 4) (i : Fin 4) (b : Operand) (tbl : BitVec 8) (s : State) : Res :=
  runWord t ⟨0x201, p, .lookup i false, b, .table tbl⟩ s (lookupWord t .lpm i b tbl)

/-- LKT (R170). -/
def execLkt (t : Tid) (p : BitVec 4) (i : Fin 4) (b : Operand) (tbl : BitVec 8) (s : State) : Res :=
  runWord t ⟨0x202, p, .lookup i false, b, .table tbl⟩ s (lookupWord t .tern i b tbl)

/-- LOOKUP_RESULT (R123): the result of the lookup outstanding into Li arrives, to be counted if the run commits. -/
def execLookupResult (t : Tid) (i : Fin 4) (s : State) : Res :=
  let th := s.thread t
  match th.l[i].issued with
  | none => .next s
  | some (tbl, o) =>
    if th.unretired = false ∨ th.l[i].arrived = true then .next s
    else .next (s.setThread t { th with
      l := th.l.set i { th.l[i] with arrived := true }
      looks := th.looks ++ [(tbl, o.code)] })

/-- LKW (R124): the thread blocks on the results that the mask names; a mask of 0 names none and does nothing. -/
def lkwWait (mask : BitVec 12) (th : Thread) : Thread :=
  if bits mask 3 0 = 0 then th else { th with state := .blocked, waiting := mask.extractLsb' 0 4 }

/-- LKW (R124). -/
def execLkw (t : Tid) (p : BitVec 4) (mask : BitVec 12) (s : State) : Res :=
  runLocal t ⟨0x208, p, .uimm mask, .none, .none⟩ s (lkwWait mask)

/-- A lookup register that LKW no longer waits for: it has its result, or none is outstanding. -/
def LSlot.settled (x : LSlot) : Bool := x.issued.isNone || x.arrived

/-- Every Li named in the mask is settled (R124). -/
def Thread.allSettled (th : Thread) : Bool :=
  (List.finRange 4).all (fun i => !bit th.waiting i.val || th.l[i].settled)

/-- LKW delivers Li and sets Ti (R124). -/
def Thread.deliver (th : Thread) (i : Fin 4) : Thread :=
  match th.l[i].issued with
  | some (_, .hit r loc) =>
    { th with
      l := th.l.set i { val := r, valid := true, hit := true, loc := loc, issued := none, arrived := false }
      t := setBits th.t i.val i.val 0 }
  | some (_, _) =>
    { th with
      l := th.l.set i { val := 0, valid := true, hit := false, loc := none, issued := none, arrived := false }
      t := setBits th.t i.val i.val 1 }
  | none => { th with t := setBits th.t i.val i.val 1 }

/-- LKW_RELEASE (R62, R124): every awaited result is present, and the thread becomes READY. -/
def execLkwRelease (t : Tid) (s : State) : Res :=
  let th := s.thread t
  if th.state ≠ .blocked ∨ th.allSettled = false then .next s
  else
    let th1 := (List.finRange 4).foldl (fun x i => if bit th.waiting i.val then x.deliver i else x) th
    .next (s.setThread t { th1 with state := .ready, waiting := 0 })

/-- UPD (R125): a table write of B to the entry that Li hit; nothing is appended without one. -/
def updWord (t : Tid) (i : Fin 4) (b : Operand) (s : State) (th : Thread) : State × Thread :=
  let x := th.l[i]
  match x.valid && x.hit, x.loc with
  | true, some loc =>
    let r := dirResW (s.dirLive (sliceOf t.cluster.val / 2) loc.table)
    (s, th.append (.upd loc (keyOf th b r)))
  | _, _ => (s, th)

/-- UPD (R125). -/
def execUpd (t : Tid) (p : BitVec 4) (i : Fin 4) (b : Operand) (s : State) : Res :=
  runWord t ⟨0x210, p, .lookup i false, b, .none⟩ s (updWord t i b)

/-- LEARN (R174): a request for key B with result C. -/
def learnWord (t : Tid) (tbl : BitVec 8) (b c : Operand) (s : State) (th : Thread) : State × Thread :=
  let e := s.dirLive (sliceOf t.cluster.val / 2) tbl.toNat
  (s, th.append (.learn tbl.toNat (keyOf th b (dirKeyW e)) (keyOf th c (dirResW e))))

/-- LEARN (R174). -/
def execLearn (t : Tid) (p : BitVec 4) (tbl : BitVec 8) (b c : Operand) (s : State) : Res :=
  runWord t ⟨0x211, p, .table tbl, b, c⟩ s (learnWord t tbl b c)

/-- POST (R126): in write mode the record's bytes, the value of the sequence at C in the byte order of device memory
(R8, R111; DEDUCED, log 22); in add mode the 64-bit value at C. The directory is read at issue (R72). A table that is not in the Stacks,
or an index at or beyond COUNT (R172), is counted at commit. -/
def postWord (t : Tid) (tbl : BitVec 8) (b : Operand) (n : Fin 32) (s : State) (th : Thread) : State × Thread :=
  let quad := sliceOf t.cluster.val / 2
  let e := s.dirLive quad tbl.toNat
  let idx := (readOp th b).toNat % 2 ^ 32
  if dirValid e && decide (dirKind e = 6) && decide (idx < (e.getD 2 0).toNat) then
    let add := dirB e 4 31
    let data := if add then leBytes 8 (seqReg th n 0).toNat
      else leBytes (dirRecord e) (seqNat th n (dirRecord e / 8))
    (s, th.append (.post ⟨dirAddr e + idx * dirRecord e, data, add, quad⟩))
  else (s, th.append .postErr)

/-- POST (R126). -/
def execPost (t : Tid) (p : BitVec 4) (tbl : BitVec 8) (b : Operand) (n : Fin 32) (s : State) : Res :=
  runWord t ⟨0x212, p, .table tbl, b, .reg n⟩ s (postWord t tbl b n)

end Sys2Proof.Machine
end

