-- ==== Sys2Proof/Machine/Tick.lean ====
section
/-! DEFINITION. The tick boundary: the order of R42, the control writes that apply (R16, R33, R40), clusters and runs (R48,
R60, R83, R91), and the entry into and exit from RUNNING (R404, R407 to R410). -/

namespace Sys2Proof.Machine

/-! ### Runs of the tick that ended (R42, R51, R81, R83) -/

/-- Why a run unretired at the boundary is aborted: its cluster failed, the host stopped it, or the tick ended. -/
def State.endRun (s : State) (n : Nat) : State :=
  let c := s.cluster (tidCluster n)
  if (s.threadN n).unretired = false then s
  else if c.state = .failed then s.abortRun n 0x35
  else s.endOfTick n

/-- The runs still unretired are aborted, and the commit buffers drain. -/
def State.endRuns (s : State) : State :=
  let s1 := (s.threads.map (fun x => x.1)).foldl State.endRun s
  s1.retiredOrder.foldl State.commit s1

/-! ### Control writes apply (R16, R33) -/

/-- The data plane follows the registers; of a wide setting whose upper word is still to come it takes the low word that
the last write of the upper one completed (R15). -/
def State.applyWrites (s : State) : State :=
  { s with dp := s.wideHeld.foldl (fun m x => SMap.set (regDefault x.1) m x.1 x.2) s.regs }

/-- A cluster at the boundary: a stop, the removal of a failed one, a start (R83, R91, R92), and the bindings of a
cluster that failed. -/
def State.clusterTick (s : State) (k : Nat) : State :=
  let c := s.cluster k
  let ths := s.clusterThreads k
  if c.state = .failed then
    let s1 := s.abortBindings ths 0x35
    if c.emptyNext then
      let e := { c.freshStore 0 storeWords with state := .empty, codex := none, prog := none, stopNext := false, emptyNext := false, runNext := false, ramp := none }
      ((s1.setCluster k e).setReg (Reg.psInfo (k / 4) (k % 4)) 0).setReg (Reg.scrCodexVer (k / 4) (k % 4)) 0
    else s1
  else if c.stopNext then
    (s.abortBindings ths 0x36).setCluster k { c with state := .stopped, stopNext := false, ramp := none }
  else if c.runNext then s.setCluster k { c with state := .running, runNext := false, ramp := some 0 }
  else s

/-- A change of R48 falls at this boundary. -/
def State.r48Change (s : State) : Bool :=
  decide (s.spareIn ≠ []) || (List.range 32).any (fun k => (s.cluster k).state == ClState.running && (s.cluster k).stopNext)

/-- The clusters and Scribes at the boundary. A host stop that falls on the boundary at which a Scribe retires comes first, so that
the runs bound to it are dropped with HOST_STOP (DESIGN CHOICE, log 83). -/
def State.clustersTick (s : State) : State :=
  let s1 := (List.range 32).foldl (fun x k => (x.setCluster k (x.cluster k).rewritten).clusterTick k) s
  let s2 := s1.spareIn.foldl (fun x e => x.retireScribe e.1 e.2) { s1 with spareIn := [], halted := [] }
  s2

/-- Ports whose port node the host disables leave service (R236). -/
def State.nodesTick (old s : State) : State :=
  (List.range 512).foldl (fun x p => if old.portNodeEn p && !x.portNodeEn p then x.portDown p else x) s

/-- The wings at the boundary: UNLOCK_ALL and repairs take effect (R182, R415). -/
def State.wingsTick (s : State) : State :=
  (List.range 8).foldl (fun x w =>
    let y := ((x.applyUnlockAll w).applyRepair w).sweepEdge w
    y.setWing w { y.wing w with attempts := 0 }) s

/-- Parse banks switch where the host asked for it (R137). -/
def State.banksTick (s : State) : State := (List.range 8).foldl State.applyBank s

/-- Planes at the boundary: tests end, those declared one tick ago leave the spray set, others are declared, and RETURN begins a
test (R216, R224, R225, R227). -/
def State.planesTick (s : State) : State :=
  let each := fun (f : State → Nat → State) (y : State) => (List.range 16).foldl f y
  each State.planeReturn (each State.planeJudge (each State.leaveSpray (each State.planeTested s)))

/-- At a boundary a host write of ACTIVE acts, with CAUSE 2, or the device fails over for a cause that arose in the tick that
ended (R340). -/
def State.hostTick (s : State) : State :=
  let s1 : State := { s with dcp := { s.dcp with activeTo := none, failTo := none } }
  match s.dcp.activeTo, s.dcp.failTo.orElse (fun _ => s.failCause) with
  | some a, _ => if a = s.dcp.active then s1 else s1.switchHost a 2 (nsOf (s1.oAt 0))
  | none, some c => if s.portSt (512 + (1 - s.dcp.active)) = .up then s1.switchHost (1 - s.dcp.active) c (nsOf (s1.oAt 0)) else s1
  | none, none => s1

/-- The meters written since the last boundary are full (R240). -/
def State.metersTick (s : State) : State :=
  s.tm.meterNew.foldl (fun x k => x.meterFull (k / 16384) (k % 16384)) { s with tm := { s.tm with meterNew := [] } }

/-- All that takes effect with the control writes. -/
def State.applyControl (s : State) : State :=
  let s1 := ((((State.regionsTick s s.applyWrites).memTick).applyDir).applyCipher).wingsTick
  let s2 := (s1.banksTick).clustersTick
  let s3 := s2.planesTick.hostTick
  let s4 := s.nodesTick s3
  let s5 := if s4.boot.stop = some .refLoss then s4 else s.portsTick s4
  let s6 := ((List.range 64).foldl (fun x o => x.eyeTick o) s5).lanesTick
  ((s.rclkTick (s.rclkTick s6 false) true).gateTick).timeTick

/-! ### Runs start (R60, R63, Table 3.1) -/

/-- Registers of an ingress run: extract bytes in G16 to G31, big-endian (R64). -/
def startG (p : Pkt) (egress : Bool) : Vector (BitVec 64) 32 :=
  Vector.ofFn (fun (i : Fin 32) =>
    if egress ∨ i.val < 16 then 0
    else BitVec.ofNat 64 (beNat ((List.range 8).map (fun j => extByte p.extract (8 * (i.val - 16) + j)))))

/-- A bound thread becomes READY with its new run. -/
def Thread.start (th : Thread) : Thread :=
  match th.binding with
  | none => th
  | some p =>
    { Thread.idle with
      state := .ready
      egress := th.bindEg
      g := startG p th.bindEg
      win := p.data.take 256
      tail := p.data.drop 256
      slip := p.slip
      pc := th.bindPc
      wcet := th.bindW
      pkt := some p }

/-- The number of bound threads of a Scribe that start in this tick: its grant, and all in a safe stop, in which bound
runs retire or overrun (R45, R372). -/
def State.startRoom (s : State) (k : Nat) : Nat := if s.boot.stop.isSome then 8 else s.nextG k

/-- A thread whose packet is read from its cells: an ingress run keeps its extract's 256 bytes as they were parsed (R110, R202). -/
def State.loadBound (s : State) (th : Thread) : Thread :=
  { th with binding := th.binding.map (s.loadPkt (if th.bindEg then 0 else 256)) }

/-- The bound runs start, by rising thread number within each Scribe, with the grants that hold for this tick. -/
def State.startRuns (g : Nat → Nat) (s : State) : State :=
  let bound := s.threads.filter (fun x => x.2.binding.isSome)
  (bound.foldl (fun (x : State × SMap Nat) e =>
    let sc := e.1 / 8
    let n := SMap.find 0 x.2 sc
    if n < g (tidCluster e.1) then (x.1.setThreadN e.1 (x.1.loadBound e.2).start, SMap.set 0 x.2 sc (n + 1)) else x) (s, [])).1

/-! ### Phases (R404, R407, R408, R409) -/

/-- Answer every waiting operation of a kind. -/
def State.answerAll (s : State) (pick : Wait → Bool) (a : OpAns) : State :=
  (s.dcp.waiting.filter (fun w => pick w.what)).foldl (fun x w => x.finish w a) s

/-- A STOPPED cluster becomes RUNNING with the device (R91). -/
def Cluster.go (c : Cluster) : Cluster := if c.state = .stopped then { c with state := .running, ramp := none } else c

/-- A RUNNING or CHECKING cluster stops with the device (R91). -/
def Cluster.halt (c : Cluster) : Cluster :=
  if c.state = .running ∨ c.state = .checking then
    { c with state := .stopped, stopNext := false, runNext := false, ramp := none }
  else c

/-- Every cluster changes. -/
def State.eachCluster (s : State) (f : Cluster → Cluster) : State :=
  (List.range 32).foldl (fun x k => x.setCluster k (f (x.cluster k))) s

/-- Memory ports found unmapped at the entry into RUNNING that Vigil has not yet recorded (R207, Table 17.5). -/
def State.noteUnmapped (s : State) : State :=
  (List.range 24).foldl (fun x g =>
    if x.gdMapped g ∨ x.vigil.seen.contains (0x0020, g) then x else x.vigil' 0x0020 g) s

/-- The device enters RUNNING (R407). A snapshot of this very boundary has been latched before, and so is not the first of KL-04 (DEDUCED,
log 104). -/
def State.enterRunning (s : State) : State :=
  let s1 : State := { s with
    boot := { s.boot with phase := .running }
    alm := { s.alm with grant := 0, next := 0, setArmed := none, syncBad := 0 }
    core := { s.core with seqs := [], ctx := [] }
    ctrs := { s.ctrs with lastSnap := some s.now, fresh := true }
    dcp := { s.dcp with check := none } }
  let s2 := ((s1.eachCluster Cluster.go).renewPools).creditsInit
  ((s2.setEv Reg.hubEvents 0).answerAll (fun w => w == Wait.enable) .ack).noteUnmapped

/-- DISABLE acts: the drain begins, and the lanes in service leave it gracefully (R408, R409). -/
def State.enterDisabling (s : State) : State :=
  let s1 : State := { s with
    boot := { s.boot with phase := .disabling }
    dcp := { s.dcp with drainAt := s.now, drained := false }
    fabric := { s.fabric with lanes := SMap.mapV Lane.reset (fun x =>
      if x.state = .inService then { x with due := none, graceful := some (x.graceful.getD s.now), inSpray := false } else x) s.fabric.lanes } }
  s1.noteGone

/-- The device returns to LOADED after DISABLE (R91, R408, R410). -/
def State.leaveDisabling (s : State) : State :=
  let s1 : State := { s with
    boot := { s.boot with phase := .loaded }
    wings := SMap.mapV Wing.reset (fun x => { x with learnQ := [], retry := [] }) s.wings
    ctrs := { s.ctrs with thr := [] } }
  let s2 := s1.answerAll Wait.isStart (.nak Nak.badState)
  ((s2.eachCluster Cluster.halt).setEv Reg.hubEvents 2).answerAll (fun w => w == Wait.disable) .ack

/-- The phase at the boundary; in a safe stop it stays (R401). -/
def State.phaseTick (s : State) : State :=
  if s.boot.stop.isSome then s
  else match s.boot.phase with
    | .checking =>
      match s.dcp.check with
      | none => s
      | some c =>
        if c.1 = 0 then s.enterRunning
        else { s with boot := { s.boot with phase := .loaded }, dcp := { s.dcp with check := none } }
    | .running => if s.dcp.waiting.any (fun w => w.what == Wait.disable) then s.enterDisabling else s
    | .disabling => if s.dcp.drained then s.leaveDisabling else s
    | _ => s

/-! ### What the tick begins with -/

/-- The occupancies that threshold counters watch start a tick with what they are (R361). -/
def State.occTick (s : State) : State :=
  let s1 : State := { s with
    slices := SMap.mapV Slice.reset (fun x => { x with hi := fifoSum x.fifo, lo := fifoSum x.fifo }) s.slices
    tm := { s.tm with
      queues := SMap.mapV Queue.reset (fun x => { x with hi := x.depth, lo := x.depth }) s.tm.queues
      resHi := s.tm.residue.length
      resLo := s.tm.residue.length } }
  (List.range 16).foldl (fun x p =>
    let u := x.poolCount p - x.poolFree p
    x.setPool p { x.pool p with hi := u, lo := u }) s1

/-- Counts of one tick start again. -/
def State.freshTick (s : State) : State :=
  { s with
    slices := SMap.mapV Slice.reset (fun x => { x with placed := 0, accDone := false }) s.slices
    core := { s.core with sprayJ := [], planes := SMap.mapV Plane.reset (fun x => { x with taken := 0, sent := 0 }) s.core.planes }
    alm := { s.alm with pulseSeen := s.running && s.alm.pulseSeen }
    tm := { s.tm with copies := 0, retried := false, mirTurn := false, flushed := [], depthAt := (s.tm.queues.map (fun x => (x.1, x.2.depth))).filter (fun x => decide (x.2 ≠ 0)) } }

/-- The remaining capacity of Table 17.4 (R417). -/
def State.capTick (s : State) : State :=
  let scribes := ((List.range 32).map (fun k =>
    let c := s.cluster k
    if c.state = .failed then 0 else 64 - c.noPhys.length)).sum
  let planes := 16 - ((List.range 16).filter (fun p => decide ((s.plane p).state = 1))).length
  let ports := ((List.range 512).filter (fun p => s.portSt p == PortState.up)).length
  let mem := ((List.range 24).filter (fun g => s.gdMapped g)).length
  let mib := if s.strapF 7 6 = 1 then 4096 else 2048
  ((s.setReg Reg.vigCapRate (BitVec.ofNat 32 (scribes * 25 * 65536 + scribes))).setReg Reg.vigCapPaths
    (BitVec.ofNat 32 (planes * 65536 + ports))).setReg Reg.vigCapMem (BitVec.ofNat 32 (mem * 2 ^ 22 + mem * mib))

/-- REPLACE_N and ALERT_N at the boundary (R352, R414), and what the control protocol waits a boundary for (R35, R345): the operations
held for a gate request that has ended run too (R393). -/
def State.endTick (s : State) : State :=
  let s1 : State := { s with
    vigil := { s.vigil with replace := decide (s.vigil.state ≠ 0) }
    dcp := { s.dcp with
      alert := s.alertDue
      sessions := SMap.mapV Session.closed (fun x => { x with fresh := false }) s.dcp.sessions
      waiting := s.dcp.waiting.map (fun w => { w with passed := true }) } }
  (s1.runHeld (s1.dcp.accepted.length + 1)).actWaiting

/-- The clocks at the boundary: the time domains and the tick count move (R38, R321). Time stops while REFCLK is lost. -/
def State.clockTick (s : State) : State :=
  let n := if s.boot.stop = some .refLoss then 0 else s.tickEdges.toNat
  let s1 := ((s.timePass n).pinsPass n).almTick
  { s1 with boot := { s1.boot with stopAge := if s1.boot.stop.isSome then s1.boot.stopAge + 1 else 0 } }

/-- The sequencer and the duty counts, with the input THROT_N as it stands (R43, R48, R378, R385). -/
def State.powerTick (changed throtN : Bool) (s : State) : State :=
  let s1 : State := { s with power := { s.power with extLow := !throtN } }
  let s2 := s1.dvfsTick
  let s3 : State := { s2 with power := { s2.power with droopLeft := if changed then 64 else s2.power.droopLeft } }
  s3.dutyTick

/-- The grants, and the runs bound for this tick, with the grants published in the last one (R45, R60). -/
def State.grantsTick (s : State) : State :=
  let s1 := if s.alm.resyncTick then s else s.startRuns s.startRoom
  (List.range 32).foldl (fun x k => x.rampTick k) s1.grantTick

/-- Queues, shapers, meters and buffers at the boundary. -/
def State.flowTick (s : State) : State :=
  let s1 := ((s.refillMeters.metersTick).fillShapers).askRefills
  let s2 := ((((s1.drainPosts).countRecallLate).freshTick).flushTick.sprayHeld).notePfc
  s2.thrStart

/-- Cells are placed on the fabric links in every tick but a RESYNC tick, whose frames carry none (R58, R293, R301). The lanes send
from HOST_UP on. -/
def State.cellsTick (s : State) : State :=
  let s1 := if s.alm.resyncTick then s else s.fabSchedule
  (if 5 ≤ s1.boot.phase.code then s1.lanesSend else s1).releaseHand

/-- A tick boundary, in the order of R42. -/
def State.boundary (s : State) (throtN : Bool) : State :=
  let changed := s.r48Change
  let s1 := ((s.drainTick.logTick.thrCount).chronTick.occTick).endRuns
  let s2 := (s1.clockTick.applyControl).chronStamp
  let s3 := (s2.powerTick changed throtN).phaseTick
  (((s3.grantsTick).flowTick).cellsTick.capTick).endTick

/-- TICK_BOUNDARY (R38 to R43, R52). -/
def execTickBoundary (throtN : Bool) (s : State) : Res := if s.coreOn then .next (s.boundary throtN) else .next s

end Sys2Proof.Machine
end

