-- ==== Sys2Proof/Machine/Dispatch.lean ====
section
/-! DEFINITION. The dispatch of commands to their meanings: one arm for each row of spec/opcode_table.json. -/

namespace Sys2Proof.Machine

/-- The effect of a command on everything but the queue of waiting commands. -/
def exec (i : Instr) (s : State) : Host.Outcome State Fault Refusal :=
  match i with
  | .resetNAssert => Sys2Proof.Machine.execResetNAssert s
  | .startWindowEnd => Sys2Proof.Machine.execStartWindowEnd s
  | .xtalProven => Sys2Proof.Machine.execXtalProven s
  | .refLostInOscStart => Sys2Proof.Machine.execRefLostInOscStart s
  | .aonUpEnd => Sys2Proof.Machine.execAonUpEnd s
  | .refWindowEnd refEdges frefEdges => Sys2Proof.Machine.execRefWindowEnd refEdges frefEdges s
  | .coreUpDone => Sys2Proof.Machine.execCoreUpDone s
  | .memTrainDone results => Sys2Proof.Machine.execMemTrainDone results s
  | .refLost => Sys2Proof.Machine.execRefLost s
  | .safeStopEnd => Sys2Proof.Machine.execSafeStopEnd s
  | .haltedRestart => Sys2Proof.Machine.execHaltedRestart s
  | .frefLost => Sys2Proof.Machine.execFrefLost s
  | .tickBoundary throtN => Sys2Proof.Machine.execTickBoundary throtN s
  | .tickOverrun t => Sys2Proof.Machine.execTickOverrun t s
  | .tickSyncPulse edge => Sys2Proof.Machine.execTickSyncPulse edge s
  | .syncLost => Sys2Proof.Machine.execSyncLost s
  | .resync => Sys2Proof.Machine.execResync s
  | .resyncTick edge => Sys2Proof.Machine.execResyncTick edge s
  | .almTickSetHiWrite v => Sys2Proof.Machine.execAlmTickSetHiWrite v s
  | .droopStretch cycles => Sys2Proof.Machine.execDroopStretch cycles s
  | .frameReceive port data e dt back => Sys2Proof.Machine.execFrameReceive port data e dt back s
  | .cutThroughTake port data dt back => Sys2Proof.Machine.execCutThroughTake port data dt back s
  | .frameEndCut port rest e => Sys2Proof.Machine.execFrameEndCut port rest e s
  | .accessionPlace slice => Sys2Proof.Machine.execAccessionPlace slice s
  | .egressDispatch slice => Sys2Proof.Machine.execEgressDispatch slice s
  | .pauseFrameReceive port pfc enables times => Sys2Proof.Machine.execPauseFrameReceive port pfc enables times s
  | .pauseExpire port prio => Sys2Proof.Machine.execPauseExpire port prio s
  | .pauseFrameSend port => Sys2Proof.Machine.execPauseFrameSend port s
  | .add t p a b c => Sys2Proof.Machine.execAdd t p a b c s
  | .sub t p a b c => Sys2Proof.Machine.execSub t p a b c s
  | .and t p a b c => Sys2Proof.Machine.execAnd t p a b c s
  | .or t p a b c => Sys2Proof.Machine.execOr t p a b c s
  | .xor t p a b c => Sys2Proof.Machine.execXor t p a b c s
  | .shl t p a b c => Sys2Proof.Machine.execShl t p a b c s
  | .shr t p a b c => Sys2Proof.Machine.execShr t p a b c s
  | .rot t p a b c => Sys2Proof.Machine.execRot t p a b c s
  | .min t p a b c => Sys2Proof.Machine.execMin t p a b c s
  | .max t p a b c => Sys2Proof.Machine.execMax t p a b c s
  | .cmp t p b c => Sys2Proof.Machine.execCmp t p b c s
  | .mov t p a b => Sys2Proof.Machine.execMov t p a b s
  | .sel t p a b c => Sys2Proof.Machine.execSel t p a b c s
  | .bfx t p a b c => Sys2Proof.Machine.execBfx t p a b c s
  | .bfi t p a b c => Sys2Proof.Machine.execBfi t p a b c s
  | .popc t p a b => Sys2Proof.Machine.execPopc t p a b s
  | .clz t p a b => Sys2Proof.Machine.execClz t p a b s
  | .hash t p a n c => Sys2Proof.Machine.execHash t p a n c s
  | .csum t p a b c => Sys2Proof.Machine.execCsum t p a b c s
  | .csumi t p a b c => Sys2Proof.Machine.execCsumi t p a b c s
  | .ldh t p a b c => Sys2Proof.Machine.execLdh t p a b c s
  | .sth t p a b c => Sys2Proof.Machine.execSth t p a b c s
  | .insh t p a b => Sys2Proof.Machine.execInsh t p a b s
  | .delh t p a b => Sys2Proof.Machine.execDelh t p a b s
  | .align t p a => Sys2Proof.Machine.execAlign t p a s
  | .lkx t p li b tbl => Sys2Proof.Machine.execLkx t p li b tbl s
  | .lkp t p li b tbl => Sys2Proof.Machine.execLkp t p li b tbl s
  | .lkt t p li b tbl => Sys2Proof.Machine.execLkt t p li b tbl s
  | .lookupResult t li => Sys2Proof.Machine.execLookupResult t li s
  | .lkw t p mask => Sys2Proof.Machine.execLkw t p mask s
  | .lkwRelease t => Sys2Proof.Machine.execLkwRelease t s
  | .upd t p li b => Sys2Proof.Machine.execUpd t p li b s
  | .learn t p tbl b c => Sys2Proof.Machine.execLearn t p tbl b c s
  | .post t p tbl b n => Sys2Proof.Machine.execPost t p tbl b n s
  | .br t d => Sys2Proof.Machine.execBr t d s
  | .brc t p d => Sys2Proof.Machine.execBrc t p d s
  | .loop t p count body => Sys2Proof.Machine.execLoop t p count body s
  | .exit t p => Sys2Proof.Machine.execExit t p s
  | .abort t p => Sys2Proof.Machine.execAbort t p s
  | .fwd t p => Sys2Proof.Machine.execFwd t p s
  | .drop t p => Sys2Proof.Machine.execDrop t p s
  | .repl t p => Sys2Proof.Machine.execRepl t p s
  | .punt t p a => Sys2Proof.Machine.execPunt t p a s
  | .recirc t p => Sys2Proof.Machine.execRecirc t p s
  | .mirror t p a => Sys2Proof.Machine.execMirror t p a s
  | .slipDest t p a b => Sys2Proof.Machine.execSlipDest t p a b s
  | .slipClass t p a b => Sys2Proof.Machine.execSlipClass t p a b s
  | .slipEgr t p a b => Sys2Proof.Machine.execSlipEgr t p a b s
  | .cnt t p a b => Sys2Proof.Machine.execCnt t p a b s
  | .meter t p a b c => Sys2Proof.Machine.execMeter t p a b c s
  | .cread t p a b => Sys2Proof.Machine.execCread t p a b s
  | .tstamp t p a dt => Sys2Proof.Machine.execTstamp t p a dt s
  | .qdepth t p a b => Sys2Proof.Machine.execQdepth t p a b s
  | .ioam t p a b c => Sys2Proof.Machine.execIoam t p a b c s
  | .sasel t p a => Sys2Proof.Machine.execSasel t p a s
  | .balloc t p a b => Sys2Proof.Machine.execBalloc t p a b s
  | .bfree t p a => Sys2Proof.Machine.execBfree t p a s
  | .nop t p => Sys2Proof.Machine.execNop t p s
  | .commitApply t => Sys2Proof.Machine.execCommitApply t s
  | .machineCheck t src u => Sys2Proof.Machine.execMachineCheck t src u s
  | .scrubVisit cluster store addr main shadow => Sys2Proof.Machine.execScrubVisit cluster store addr main shadow s
  | .hello h minVer maxVer role => Sys2Proof.Machine.execHello h minVer maxVer role s
  | .read h ca => Sys2Proof.Machine.execRead h ca s
  | .write h ca value => Sys2Proof.Machine.execWrite h ca value s
  | .rmw h ca mask value => Sys2Proof.Machine.execRmw h ca mask value s
  | .bulkRead h addr len => Sys2Proof.Machine.execBulkRead h addr len s
  | .bulkWrite h addr len data => Sys2Proof.Machine.execBulkWrite h addr len data s
  | .fence h => Sys2Proof.Machine.execFence h s
  | .fenceComplete session seq => Sys2Proof.Machine.execFenceComplete session seq s
  | .fenceDrainComplete session seq => Sys2Proof.Machine.execFenceDrainComplete session seq s
  | .fenceTimeout session seq => Sys2Proof.Machine.execFenceTimeout session seq s
  | .enable h => Sys2Proof.Machine.execEnable h s
  | .checkComplete => Sys2Proof.Machine.execCheckComplete s
  | .disable h => Sys2Proof.Machine.execDisable h s
  | .drainEnd => Sys2Proof.Machine.execDrainEnd s
  | .stopClusterStop h mask => Sys2Proof.Machine.execStopClusterStop h mask s
  | .stopClusterStart h mask => Sys2Proof.Machine.execStopClusterStart h mask s
  | .clusterCheckDone cluster => Sys2Proof.Machine.execClusterCheckDone cluster s
  | .loadImage h kind mask total offset seg => Sys2Proof.Machine.execLoadImage h kind mask total offset seg s
  | .fieldRecord h => Sys2Proof.Machine.execFieldRecord h s
  | .takeover h newEpoch => Sys2Proof.Machine.execTakeover h newEpoch s
  | .dcpFrameReceive hp mac body => Sys2Proof.Machine.execDcpFrameReceive hp mac body s
  | .hostFrameReceive hp frame fcsOk => Sys2Proof.Machine.execHostFrameReceive hp frame fcsOk s
  | .injectReceive hp body dt => Sys2Proof.Machine.execInjectReceive hp body dt s
  | .dcpResponseSend hp => Sys2Proof.Machine.execDcpResponseSend hp s
  | .notice type body dt => Sys2Proof.Machine.execNotice type body dt s
  | .keepaliveExpire => Sys2Proof.Machine.execKeepaliveExpire s
  | .failover hp => Sys2Proof.Machine.execFailover hp s
  | .dcpHostportWrite v => Sys2Proof.Machine.execDcpHostportWrite v s
  | .dcpNoticeAckWrite v => Sys2Proof.Machine.execDcpNoticeAckWrite v s
  | .registerWrite ca v => Sys2Proof.Machine.execRegisterWrite ca v s
  | .bankSwitch slice => Sys2Proof.Machine.execBankSwitch slice s
  | .catDirWord0Write pair table v => Sys2Proof.Machine.execCatDirWord0Write pair table v s
  | .unlockAll wing => Sys2Proof.Machine.execUnlockAll wing s
  | .learnEngineAttempt wing dt => Sys2Proof.Machine.execLearnEngineAttempt wing dt s
  | .learnLocked wing => Sys2Proof.Machine.execLearnLocked wing s
  | .freezeEnd wing => Sys2Proof.Machine.execFreezeEnd wing s
  | .sweepVisit wing unit dt => Sys2Proof.Machine.execSweepVisit wing unit dt s
  | .sweepLate wing => Sys2Proof.Machine.execSweepLate wing s
  | .catRepair wing e => Sys2Proof.Machine.execCatRepair wing e s
  | .circHostFree v => Sys2Proof.Machine.execCircHostFree v s
  | .cacheRefillArrive pool quad => Sys2Proof.Machine.execCacheRefillArrive pool quad s
  | .cacheSpill pool quad => Sys2Proof.Machine.execCacheSpill pool quad s
  | .bufferRequest who pool quad n => Sys2Proof.Machine.execBufferRequest who pool quad n s
  | .bufferFree pool quad num cls => Sys2Proof.Machine.execBufferFree pool quad num cls s
  | .shelvePage queue => Sys2Proof.Machine.execShelvePage queue s
  | .pageRequestRetry queue => Sys2Proof.Machine.execPageRequestRetry queue s
  | .recallComplete queue bad => Sys2Proof.Machine.execRecallComplete queue bad s
  | .edcFailure port recovered what => Sys2Proof.Machine.execEdcFailure port recovered what s
  | .gddrPortLost port stoppedAnswering => Sys2Proof.Machine.execGddrPortLost port stoppedAnswering s
  | .remapDone port => Sys2Proof.Machine.execRemapDone port s
  | .lostPagesMarked port => Sys2Proof.Machine.execLostPagesMarked port s
  | .unmap port => Sys2Proof.Machine.execUnmap port s
  | .retrain port => Sys2Proof.Machine.execRetrain port s
  | .retrainAll quad => Sys2Proof.Machine.execRetrainAll quad s
  | .trainDone quad results => Sys2Proof.Machine.execTrainDone quad results s
  | .cellArrive plane hcrcBad => Sys2Proof.Machine.execCellArrive plane hcrcBad s
  | .reseqGap slice ctx => Sys2Proof.Machine.execReseqGap slice ctx s
  | .planeDown plane missed => Sys2Proof.Machine.execPlaneDown plane missed s
  | .takeOut plane => Sys2Proof.Machine.execTakeOut plane s
  | .planeReturn plane => Sys2Proof.Machine.execPlaneReturn plane s
  | .planeTestEnd plane missed => Sys2Proof.Machine.execPlaneTestEnd plane missed s
  | .pathFlushEnd => Sys2Proof.Machine.execPathFlushEnd s
  | .enqueue slice => Sys2Proof.Machine.execEnqueue slice s
  | .dequeue port dt => Sys2Proof.Machine.execDequeue port dt s
  | .transmit slice dt => Sys2Proof.Machine.execTransmit slice dt s
  | .transmitComplete port => Sys2Proof.Machine.execTransmitComplete port s
  | .portFlush port => Sys2Proof.Machine.execPortFlush port s
  | .portFlushEnd port => Sys2Proof.Machine.execPortFlushEnd port s
  | .replicate => Sys2Proof.Machine.execReplicate s
  | .residueRetry => Sys2Proof.Machine.execResidueRetry s
  | .residueExpired => Sys2Proof.Machine.execResidueExpired s
  | .mirrorCopy => Sys2Proof.Machine.execMirrorCopy s
  | .portEnable port en => Sys2Proof.Machine.execPortEnable port en s
  | .anAgree port partner => Sys2Proof.Machine.execAnAgree port partner s
  | .trainingDone port inverted => Sys2Proof.Machine.execTrainingDone port inverted s
  | .linkUp port reversed => Sys2Proof.Machine.execLinkUp port reversed s
  | .alignFail port => Sys2Proof.Machine.execAlignFail port s
  | .linkLoss port localFault remoteFault => Sys2Proof.Machine.execLinkLoss port localFault remoteFault s
  | .holdRestore port => Sys2Proof.Machine.execHoldRestore port s
  | .holdExpire port => Sys2Proof.Machine.execHoldExpire port s
  | .octModeWrite octet v => Sys2Proof.Machine.execOctModeWrite octet v s
  | .eyeScanStart octet => Sys2Proof.Machine.execEyeScanStart octet s
  | .eyeScanCancel octet => Sys2Proof.Machine.execEyeScanCancel octet s
  | .eyePointDone octet errors => Sys2Proof.Machine.execEyePointDone octet errors s
  | .eyeDone octet => Sys2Proof.Machine.execEyeDone octet s
  | .rclkSquelch b => Sys2Proof.Machine.execRclkSquelch b s
  | .rclkResume b => Sys2Proof.Machine.execRclkResume b s
  | .fabTrainingDone lane partnerDev partnerLane fe minVer maxVer compact freqBad pair rtt => Sys2Proof.Machine.execFabTrainingDone lane partnerDev partnerLane fe minVer maxVer compact freqBad pair rtt s
  | .commaLock lane => Sys2Proof.Machine.execCommaLock lane s
  | .bitslip lane => Sys2Proof.Machine.execBitslip lane s
  | .alignDone lane => Sys2Proof.Machine.execAlignDone lane s
  | .fabRetrain lane => Sys2Proof.Machine.execFabRetrain lane s
  | .fabTestPass lane => Sys2Proof.Machine.execFabTestPass lane s
  | .linkFrameReceive lane corrected uncorrectable line => Sys2Proof.Machine.execLinkFrameReceive lane corrected uncorrectable line s
  | .credit lane target slice tc total granting => Sys2Proof.Machine.execCredit lane target slice tc total granting s
  | .reach lane upper map => Sys2Proof.Machine.execReach lane upper map s
  | .creditReset lane target sending => Sys2Proof.Machine.execCreditReset lane target sending s
  | .creditRefresh dev => Sys2Proof.Machine.execCreditRefresh dev s
  | .fabLaneDisable lane => Sys2Proof.Machine.execFabLaneDisable lane s
  | .fabGracefulEnd lane => Sys2Proof.Machine.execFabGracefulEnd lane s
  | .linkLost lane => Sys2Proof.Machine.execLinkLost lane s
  | .macsecRxPass port dt => Sys2Proof.Machine.execMacsecRxPass port dt s
  | .icvCheckDone port => Sys2Proof.Machine.execIcvCheckDone port s
  | .outboundPass p => Sys2Proof.Machine.execOutboundPass p s
  | .espInboundPass p => Sys2Proof.Machine.execEspInboundPass p s
  | .cipSaRead slice => Sys2Proof.Machine.execCipSaRead slice s
  | .cipSaWrite slice => Sys2Proof.Machine.execCipSaWrite slice s
  | .cipSaClear slice => Sys2Proof.Machine.execCipSaClear slice s
  | .exportClear slice => Sys2Proof.Machine.execExportClear slice s
  | .exportWrap slice kek => Sys2Proof.Machine.execExportWrap slice kek s
  | .importRecord slice target => Sys2Proof.Machine.execImportRecord slice target s
  | .keyCommit => Sys2Proof.Machine.execKeyCommit s
  | .keyErase => Sys2Proof.Machine.execKeyErase s
  | .timeOfsWrite d v => Sys2Proof.Machine.execTimeOfsWrite d v s
  | .timeIncWrite d v => Sys2Proof.Machine.execTimeIncWrite d v s
  | .switchJump => Sys2Proof.Machine.execSwitchJump s
  | .switchSlew => Sys2Proof.Machine.execSwitchSlew s
  | .slewDone => Sys2Proof.Machine.execSlewDone s
  | .evtEdge pin rising dt => Sys2Proof.Machine.execEvtEdge pin rising dt s
  | .evtArm pin v => Sys2Proof.Machine.execEvtArm pin v s
  | .evtPulse pin dt => Sys2Proof.Machine.execEvtPulse pin dt s
  | .tsqRelease n => Sys2Proof.Machine.execTsqRelease n s
  | .chronSnapshot => Sys2Proof.Machine.execChronSnapshot s
  | .chronRecordDone => Sys2Proof.Machine.execChronRecordDone s
  | .chrCfgWrite v => Sys2Proof.Machine.execChrCfgWrite v s
  | .chrRdIdxWrite v => Sys2Proof.Machine.execChrRdIdxWrite v s
  | .chrThrWrite t w v => Sys2Proof.Machine.execChrThrWrite t w v s
  | .powCtlWrite v => Sys2Proof.Machine.execPowCtlWrite v s
  | .regReadback => Sys2Proof.Machine.execRegReadback s
  | .regTimeout slots => Sys2Proof.Machine.execRegTimeout slots s
  | .firstCoreSlot => Sys2Proof.Machine.execFirstCoreSlot s
  | .regulatorPoll volts amps => Sys2Proof.Machine.execRegulatorPoll volts amps s
  | .railWindowEnd rail => Sys2Proof.Machine.execRailWindowEnd rail s
  | .capCheck => Sys2Proof.Machine.execCapCheck s
  | .thermalCheck => Sys2Proof.Machine.execThermalCheck s
  | .sensorSample temps => Sys2Proof.Machine.execSensorSample temps s
  | .thermShutdown => Sys2Proof.Machine.execThermShutdown s
  | .jobEnergyUpdate dt => Sys2Proof.Machine.execJobEnergyUpdate dt s
  | .clkGate => Sys2Proof.Machine.execClkGate s
  | .clkUngate => Sys2Proof.Machine.execClkUngate s
  | .gateBusy => Sys2Proof.Machine.execGateBusy s
  | .vigilEvent event object dt => Sys2Proof.Machine.execVigilEvent event object dt s
  | .lifeLogBurn => Sys2Proof.Machine.execLifeLogBurn s
  | .ctrlUecc e => Sys2Proof.Machine.execCtrlUecc e s
  | .odbUecc e => Sys2Proof.Machine.execOdbUecc e s
  | .smbusTransaction command form => Sys2Proof.Machine.execSmbusTransaction command form s
  | .tapInstruction opcode => Sys2Proof.Machine.execTapInstruction opcode s
  | .resetNRelease straps => Sys2Proof.Machine.execResetNRelease straps s
  | .xtalProofFail => Sys2Proof.Machine.execXtalProofFail s
  | .phaseWanderExceeded lane => Sys2Proof.Machine.execPhaseWanderExceeded lane s
  | .tickOutPulse => Sys2Proof.Machine.execTickOutPulse s
  | .gddrRetrainDone port result => Sys2Proof.Machine.execGddrRetrainDone port result s
  | .stateWordCheckDone => Sys2Proof.Machine.execStateWordCheckDone s

end Sys2Proof.Machine
end

