-- ==== Sys2Proof/Safety.lean ====
section
/-! DEFINITION. What a safe run is, in the terms the statements use. -/

namespace Sys2Proof.Safety

open Sys2Proof.Machine

/-- A step that neither faults nor is refused. -/
def Runs (s t : State) : Prop := step s = .next t

/-- A command that runs from a state to a state. -/
def Does (i : Instr) (s t : State) : Prop := exec i s = .next t

end Sys2Proof.Safety
end

