-- ==== Sys2Proof/WellFormed.lean ====
section
/-! DEFINITION. Which commands are well formed: the issue of a Dinum word only of a word that the loader accepts (R94,
R106, R113, R115, R117, R121, R128, R132), and instances only of the numbers that the part has (R17). -/

namespace Sys2Proof

/-- The ports of the part: L000-L511 (R17). -/
def portOk (p : Nat) : Bool := decide (p < 512)

/-- The host ports as port numbers stand after the network ports (Table 3.2). -/
def anyPortOk (p : Nat) : Bool := decide (p < 514)

/-- A LOOP count lies from 0 to 16 (R128). -/
def loopOk (count : BitVec 12) : Bool := decide (count.toNat ≤ 16)

/-- A command is well formed. -/
def Instr.wf (i : Instr) : Bool :=
  (match i.dword with
   | some (_, w) => w.ok
   | none => true) &&
  (match i with
   | .loop _ _ count _ => loopOk count
   | .frameReceive p _ _ _ _ | .cutThroughTake p _ _ _ | .frameEndCut p _ _ | .pauseFrameReceive p _ _ _
   | .pauseExpire p _ | .pauseFrameSend p | .portFlush p | .portFlushEnd p
   | .macsecRxPass p _ | .icvCheckDone p => portOk p
   | .portEnable p _ | .trainingDone p _ | .linkUp p _ | .linkLoss p _ _ | .holdRestore p | .holdExpire p
   | .anAgree p _ | .alignFail p | .dequeue p _ | .transmitComplete p => anyPortOk p
   | _ => true)

end Sys2Proof
end

