-- ==== Sys2Proof/Certificates/Slice0/Obligations.lean ====
section
/-! DEFINITION. The statements for the provers. The words of Sys2Proof.Spec say in the manual's terms what a command leaves
behind; each Obligations.<Name> states a rule, or a family of rules, in them. A statement of an effect says that exec
answers a next state, what that state holds, and what it leaves alone. -/

namespace Sys2Proof.Spec
end Sys2Proof.Spec

section

open Sys2Proof Sys2Proof.Machine Sys2Proof.Spec

namespace Sys2Proof.Spec

open Sys2Proof.Machine

/-! ### Words shared by every statement -/

/-- Every byte of device memory reads as before. -/
def SameMem (s t : State) : Prop := ∀ a, memRead t.mem a = memRead s.mem a

/-- Every register but those of a list is as before. -/
def SameRegsBut (l : List Nat) (s t : State) : Prop := ∀ ca, ca ∉ l → t.reg ca = s.reg ca

/-- Bit n of a register is set, and its other bits are as before. -/
def SetsBit (ca n : Nat) (s t : State) : Prop :=
  bit (t.reg ca) n = true ∧ ∀ k, k ≠ n → bit (t.reg ca) k = bit (s.reg ca) k

/-- A saturating 32-bit counter register counted n more. -/
def Counts (ca n : Nat) (s t : State) : Prop := (t.reg ca).toNat = min ((s.reg ca).toNat + n) (2 ^ 32 - 1)

/-- A device counter, 64 bits wide (R354). -/
def ctr (s : State) (n : Nat) : Word64 := SMap.find 0 s.ctrs.ctr n

/-- A device counter counted n more, modulo 2^64, and no other counter changed. -/
def CountsCtr (i n : Nat) (s t : State) : Prop :=
  ∀ j, ctr t j = if j = i then ctr s j + BitVec.ofNat 64 n else ctr s j

end Sys2Proof.Spec

/-! ### The block and its queue -/

/-- The command at the front of the queue runs, on the state with the rest of the queue. With no command waiting the block idles: the state after a
step is the state before it (log 2, DESIGN CHOICE). -/
def Obligations.StepRunsTheFrontCommandOrIdles : Prop :=
  (
  ∀ (c : Instr) (cs : List Instr) (s : State), s.pending = c :: cs →
    step s = exec c { s with pending := cs }) ∧
  (
  ∀ s : State, s.pending = [] → step s = .next s)

namespace Sys2Proof.Spec

open Sys2Proof.Machine

/-- What every step keeps: device memory lists its bytes in the canonical form. -/
def MemOk (s : State) : Prop := Memory.wf s.mem = true

end Sys2Proof.Spec

/-- Whatever the state, and whatever command stands in front: if a step answers a next state, device memory is in its
canonical form after it where it was before it. -/
def Obligations.EveryStepKeepsMemoryForm : Prop :=
  ∀ s t : State, MemOk s → step s = .next t → MemOk t

/-- No command faults, and the only refusals are those of a Dinum word that no store can hold (R106) and of the private
TAP instructions in test mode (R2, R424): every other command answers a next state. -/
def Obligations.OnlyBadWordsAndPrivateTestsStop : Prop :=
  ∀ (c : Instr) (s : State),
    (∃ t, exec c s = .next t) ∨
    (∃ x w, c.dword = some (x, w) ∧ w.ok = false ∧
      exec c s = .refused (.badWord w.nw.toNat)) ∨
    (∃ op, c = .tapInstruction op ∧ s.testMode = true ∧
      exec c s = .refused (.privateTest op.toNat))

namespace Sys2Proof.Spec

open Sys2Proof.Machine

/-! ### Dinum words: when they issue, what moves on -/

/-- It is the thread's turn to issue (R61): its Scribe is neither halted (R98) nor without a physical Scribe (R100), and the
thread is the first READY one after the thread of the Scribe that issued last. -/
structure MayFetch (s : State) (t : Tid) : Prop where
  ready   : (s.thread t).state = .ready
  runs    : scribeIdx t.cluster.val t.scribe.val ∉ s.halted
  present : t.scribe.val ∉ (s.cluster t.cluster.val).noPhys
  turn    : s.nextThread t.cluster.val t.scribe.val = some t.thread.val

/-- The thread issues the next word of its run: it is its turn, the word is inside the entry's declared WCET (R69), and the main
copies of the word and of its nanoword keep their parity (R97). -/
structure MayIssue (s : State) (t : Tid) : Prop extends MayFetch s t where
  budget  : (s.thread t).issued < (s.thread t).wcet
  sound   : s.fetchBad t = none

/-- The word of a command may stand in a program store, and its condition holds or does not gate it (R106). -/
def Acts (i : Instr) (t : Tid) (w : DWord) (s : State) : Prop :=
  i.dword = some (t, w) ∧ w.ok = true ∧
  (w.nw = 0x00D ∨ w.nw = 0x301 ∨ w.nw = 0x302 ∨ predHolds (s.thread t) w.pred = true)

/-- The issue is noted: the cluster has issued one word more (R391), and the thread is the last of its Scribe that issued (R61). -/
def NotedIssue (s : State) (t : Tid) (s' : State) : Prop :=
  (∀ k, SMap.find 0 s'.power.words k = SMap.find 0 s.power.words k + if k = t.cluster.val then 1 else 0) ∧
  (∀ k, SMap.find 0 s'.issuer k =
    if k = scribeIdx t.cluster.val t.scribe.val then t.thread.val + 1 else SMap.find 0 s.issuer k)

/-- Outside thread t, and what its issue notes, nothing has changed. -/
def OnlyThread (s : State) (t : Tid) (s' : State) : Prop :=
  s' = { s with
    threads := s'.threads
    issuer := s'.issuer
    power := { s.power with words := s'.power.words } } ∧
  (∀ k, k ≠ tidIdx t → s'.threadN k = s.threadN k) ∧ NotedIssue s t s'

/-- One word has been issued, and the run goes on at the next word, or at the first word of a loop body that has passes
left (R128). -/
def MovesOn (th u : Thread) : Prop :=
  u.issued = th.issued + 1 ∧
  match th.loop with
  | none => u.pc = th.pc + 1 ∧ u.loop = none
  | some l =>
    if th.pc + 1 ≠ l.after then u.pc = th.pc + 1 ∧ u.loop = some l
    else if l.left = 0 then u.pc = th.pc + 1 ∧ u.loop = none
    else u.pc = l.first ∧ u.loop = some { l with left := l.left - 1 }

/-- Window bytes [o, o + n) hold the low n bytes of v, most significant first, where the window reaches; every other byte
and the window length are as before (R109, R110). -/
def WroteWindow (th u : Thread) (o n : Nat) (v : Word64) : Prop :=
  u.win.length = th.win.length ∧
  ∀ k, winByte u k =
    if o ≤ k ∧ k < o + n ∧ k < th.win.length then BitVec.ofNat 8 (v.toNat / 256 ^ (o + n - 1 - k)) else winByte th k

/-- Call slip bytes [o, o + n) hold the low n bytes of v, least significant first, in the bits that a program may write;
every other bit is as before (R66, R109). -/
def WroteSlip (th u : Thread) (o n : Nat) (v : Word64) : Prop :=
  ∀ k, slipByte u.slip k =
    if o ≤ k ∧ k < o + n ∧ k < 128 then
      (slipByte th.slip k &&& ~~~slipMask th.egress k) ||| (BitVec.ofNat 8 (v.toNat / 256 ^ (k - o)) &&& slipMask th.egress k)
    else slipByte th.slip k

/-- The destination named by an operand has taken the value v, and nothing else of the four places has changed (R109). -/
def Wrote (th u : Thread) (v : Word64) : Operand → Prop
  | .reg n => (∀ k : Fin 32, u.g[k] = if k = n then v else th.g[k]) ∧ u.t = th.t ∧ u.win = th.win ∧ u.slip = th.slip
  | .pred i =>
    (∀ k : Fin 4, bit u.t k.val = if k = i then bit v 0 else bit th.t k.val) ∧
    u.g = th.g ∧ u.win = th.win ∧ u.slip = th.slip
  | .hdrAbs off w => WroteWindow th u off.toNat (w.toNat + 1) v ∧ u.g = th.g ∧ u.t = th.t ∧ u.slip = th.slip
  | .hdrRel i d wc =>
    (if slipByte th.slip (0x10 + i.toNat) = 0xFF then u.win = th.win
     else WroteWindow th u ((slipByte th.slip (0x10 + i.toNat)).toNat + d.toNat) (2 ^ wc.toNat) v) ∧
    u.g = th.g ∧ u.t = th.t ∧ u.slip = th.slip
  | .slip off w => WroteSlip th u off.toNat (w.toNat + 1) v ∧ u.g = th.g ∧ u.t = th.t ∧ u.win = th.win
  | _ => u.g = th.g ∧ u.t = th.t ∧ u.win = th.win ∧ u.slip = th.slip

/-- Of a thread, only the places of a destination, the flags, and what moving on changes. -/
def OnlyResult (th u : Thread) : Prop :=
  u = { th with
    g := u.g
    t := u.t
    win := u.win
    slip := u.slip
    z := u.z
    c := u.c
    n := u.n
    v := u.v
    pc := u.pc
    issued := u.issued
    loop := u.loop }

/-- Each of the four flags takes the value given for it, or keeps its own (R107). -/
def Flags (th u : Thread) (z c n v : Option Bool) : Prop :=
  u.z = z.getD th.z ∧ u.c = c.getD th.c ∧ u.n = n.getD th.n ∧ u.v = v.getD th.v

/-! ### Arithmetic and bit words (Table 4.4) -/

/-- What Table 4.4 gives a word: destination, 64-bit result, and the flags it changes. -/
structure Rule where
  dst : Operand
  val : Word64
  z   : Option Bool
  c   : Option Bool
  n   : Option Bool
  v   : Option Bool

/-- A value outside the range of signed 64-bit numbers. -/
def outside (x : Int) : Bool := decide (x < -(2 ^ 63)) || decide (2 ^ 63 ≤ x)

/-- A result with Z and N from all its bits. -/
def Rule.zn (dst : Operand) (val : Word64) (c v : Option Bool) : Rule :=
  ⟨dst, val, some (decide (val.toNat = 0)), c, some (decide (2 ^ 63 ≤ val.toNat)), v⟩

/-- A number in 16-bit ones' complement arithmetic: 0 only for 0, else what is left after the end-around carries. -/
def ones16 (x : Nat) : Nat := if x = 0 then 0 else if x % 65535 = 0 then 65535 else x % 65535

/-- The ones' complement sum's addend for a byte range of the window: even places are high bytes. -/
def windowSum (th : Thread) (o n : Nat) : Nat :=
  ((List.range n).map (fun k => (winByte th (o + k)).toNat * if k % 2 = 0 then 256 else 1)).sum

/-- Table 4.4, row by row. x and y are the values of operands B and C before the word. -/
def table44 (th : Thread) : Instr → Option Rule
  | .add _ _ a b c =>
    let x := readOp th b
    let y := readOp th c
    some (.zn a (BitVec.ofNat 64 (x.toNat + y.toNat)) (some (decide (2 ^ 64 ≤ x.toNat + y.toNat)))
      (some (outside (x.toInt + y.toInt))))
  | .sub _ _ a b c =>
    let x := readOp th b
    let y := readOp th c
    some (.zn a (BitVec.ofInt 64 (x.toInt - y.toInt)) (some (decide (y.toNat ≤ x.toNat))) (some (outside (x.toInt - y.toInt))))
  | .cmp _ _ b c =>
    let x := readOp th b
    let y := readOp th c
    some (.zn .none (BitVec.ofInt 64 (x.toInt - y.toInt)) (some (decide (y.toNat ≤ x.toNat)))
      (some (outside (x.toInt - y.toInt))))
  | .and _ _ a b c => some (.zn a (readOp th b &&& readOp th c) (some false) (some false))
  | .or _ _ a b c => some (.zn a (readOp th b ||| readOp th c) (some false) (some false))
  | .xor _ _ a b c => some (.zn a (readOp th b ^^^ readOp th c) (some false) (some false))
  | .shl _ _ a b c =>
    let n := (readOp th c).toNat % 64
    some (.zn a (BitVec.ofNat 64 ((readOp th b).toNat * 2 ^ n))
      (some (decide ((readOp th b).toNat * 2 ^ n / 2 ^ 64 % 2 = 1))) (some false))
  | .shr _ _ a b c =>
    let n := (readOp th c).toNat % 64
    some (.zn a (BitVec.ofNat 64 ((readOp th b).toNat / 2 ^ n))
      (some (decide ((readOp th b).toNat * 2 / 2 ^ n % 2 = 1 ∧ n ≠ 0))) (some false))
  | .rot _ _ a b c => some (.zn a ((readOp th b).rotateRight ((readOp th c).toNat % 64)) none none)
  | .min _ _ a b c => some ⟨a, BitVec.ofNat 64 (min (readOp th b).toNat (readOp th c).toNat), none, none, none, none⟩
  | .max _ _ a b c => some ⟨a, BitVec.ofNat 64 (max (readOp th b).toNat (readOp th c).toNat), none, none, none, none⟩
  | .mov _ _ a b => some ⟨a, readOp th b, none, none, none, none⟩
  | .sel _ p a b c => some ⟨a, if predHolds th p then readOp th b else readOp th c, none, none, none, none⟩
  | .bfx _ _ a b c =>
    some (.zn a (BitVec.ofNat 64 ((readOp th b).toNat / 2 ^ (c.toNat / 64) % 2 ^ (c.toNat % 64 + 1))) none none)
  | .bfi _ _ a b c =>
    let lsb := c.toNat / 64
    let x := readOp th a
    let y := readOp th b
    some (.zn a (BitVec.ofFnLE fun k : Fin 64 =>
      if lsb ≤ k.val ∧ k.val < lsb + (c.toNat % 64 + 1) then bit y (k.val - lsb) else bit x k.val) none none)
  | .popc _ _ a b =>
    let n := (List.range 64).countP (fun k => bit (readOp th b) k)
    some ⟨a, BitVec.ofNat 64 n, some (decide (n = 0)), none, none, none⟩
  | .clz _ _ a b =>
    let n := ((List.range 64).takeWhile (fun k => !bit (readOp th b) (63 - k))).length
    some ⟨a, BitVec.ofNat 64 n, some (decide (n = 0)), none, none, none⟩
  | .csum _ _ a b c =>
    let r := ones16 ((readOp th a).toNat % 65536 + windowSum th (readOp th b).toNat (min (readOp th c).toNat 256))
    some ⟨a, BitVec.ofNat 64 r, some (decide (r = 0)), none, none, none⟩
  | .csumi _ _ a b c =>
    let r := 65535 - ones16 ((65535 - (readOp th a).toNat % 65536) + (65535 - (readOp th b).toNat % 65536) +
      (readOp th c).toNat % 65536)
    some ⟨a, BitVec.ofNat 64 r, some (decide (r = 0)), none, none, none⟩
  | .nop _ _ => some ⟨.none, 0, none, none, none, none⟩
  | _ => none

end Sys2Proof.Spec

/-- The 20 words of Table 4.4 other than HASH, and NOP: each answers a next state in which the destination has taken the
table's result, the flags that the table lists have the values it gives, and nothing else has changed but what moving on
to the next word changes. -/
def Obligations.ArithmeticWordsFollowTable : Prop :=
  ∀ (i : Instr) (t : Tid) (w : DWord) (s : State)
    (r : Rule), MayIssue s t → Acts i t w s →
    table44 (s.thread t) i = some r →
    ∃ s', exec i s = .next s' ∧ OnlyThread s t s' ∧ SameMem s s' ∧
      MovesOn (s.thread t) (s'.thread t) ∧ OnlyResult (s.thread t) (s'.thread t) ∧
      Wrote (s.thread t) (s'.thread t) r.val r.dst ∧
      Flags (s.thread t) (s'.thread t) r.z r.c r.n r.v

namespace Sys2Proof.Spec

open Sys2Proof.Machine

/-! ### Operands (Table 4.3) -/

/-- n bytes from a place, most significant first. -/
def bigEndian (f : Nat → Byte) (o n : Nat) : Nat := ((List.range n).map (fun k => (f (o + k)).toNat * 256 ^ (n - 1 - k))).sum

/-- n bytes from a place, least significant first. -/
def littleEndian (f : Nat → Byte) (o n : Nat) : Nat := ((List.range n).map (fun k => (f (o + k)).toNat * 256 ^ k)).sum

/-- The sequence of m registers at Gn, most significant first, wrapping after G31 (R111). -/
def sequence (th : Thread) (n : Fin 32) (m : Nat) : Nat :=
  ((List.range m).map (fun k => (th.g[(n + Fin.ofNat 32 k : Fin 32)]).toNat * 2 ^ (64 * (m - 1 - k)))).sum

/-- The low k bits of an operand taken as a key, or as result data (R122, R125). -/
def lowBits (th : Thread) (b : Operand) (k : Nat) : Nat :=
  match b with
  | .reg n => sequence th n ((k + 63) / 64) % 2 ^ k
  | o => (readOp th o).toNat % 2 ^ k

/-- Of a thread, only what moving on changes. -/
def OnlyMoved (th u : Thread) : Prop := u = { th with pc := u.pc, issued := u.issued, loop := u.loop }

/-- The slice of a thread (R17). -/
def sliceNo (t : Tid) : Nat := t.cluster.val / 4

/-! ### Words that append a commit-buffer entry (R72) -/

/-- The entry that a deferred word of Tables 4.6, 4.8, 4.9 and 4.11 appends; none where the word appends none. The directory
word 4 bit 31 of a table of the Stacks selects add mode (R126). -/
def deferred (s : State) (t : Tid) : Instr → Option CEntry
  | .cnt _ _ a b =>
    some (.cnt (16384 * sliceNo t + (readOp (s.thread t) a).toNat % 16384)
      (if b = .none then 1 else readOp (s.thread t) b))
  | .mirror _ _ a => some (.mirror ((readOp (s.thread t) a).toNat % 32))
  | .bfree _ _ a => some (.bfree ((readOp (s.thread t) a).toNat / 2 ^ 60) ((readOp (s.thread t) a).toNat % 2 ^ 32))
  | .learn _ _ tbl b c =>
    let e := s.dirLive (sliceNo t / 2) tbl.toNat
    some (.learn tbl.toNat (lowBits (s.thread t) b (dirKeyW e)) (lowBits (s.thread t) c (dirResW e)))
  | .upd _ _ i b =>
    let x := (s.thread t).l[i]
    match x.valid, x.hit, x.loc with
    | true, true, some loc => some (.upd loc (lowBits (s.thread t) b (dirResW (s.dirLive (sliceNo t / 2) loc.table))))
    | _, _, _ => none
  | _ => none

end Sys2Proof.Spec

/-- A word that is gated false (R106) uses its issue cycle and moves on, and changes no register, predicate, flag, header
byte or call slip byte, appends no commit-buffer entry and does not retire the run. The loader follows a gated word as executed and
as skipped: it counts its entry, and goes on behind it, so that a gated last word falls off the end and its entry point is refused with IMAGE_FALLOFF.
A BR whose PRED is not 0 is no word that a store can hold. -/
def Obligations.GatedFalseWordOnlyMovesOn : Prop :=
  (∀ (i : Instr) (t : Tid) (w : DWord) (s : State),
    MayIssue s t → i.dword = some (t, w) → w.ok = true →
    w.nw ≠ 0x00D → w.nw ≠ 0x301 → predHolds (s.thread t) w.pred = false →
    ∃ s', exec i s = .next s' ∧ OnlyThread s t s' ∧ SameMem s s' ∧ OnlyMoved (s.thread t) (s'.thread t) ∧
      (s'.thread t).issued = (s.thread t).issued + 1 ∧ (w.nw ≠ 0x302 → MovesOn (s.thread t) (s'.thread t))) ∧
  (∀ (w : DWord) (rest : List PathInfo), w.pred ≠ 0 → w.nw ∉ [0x300, 0x301, 0x302] →
    (wordPath w rest).len = (pathAt rest 0).len + 1 ∧
    (wordPath w rest).commits = (pathAt rest 0).commits + (if commits w.nw.toNat = true then 1 else 0) ∧
    (wordPath w rest).falls = (pathAt rest 0).falls ∧ (wordPath w []).falls = true) ∧
  (∀ (w : DWord) (ws : List DWord) (rest : List PathInfo), w.pred ≠ 0 →
    loopPath w ws rest = (loopPath { w with pred := 0 } ws rest).join ((pathAt rest (opDisp w.b)).after 1 0)) ∧
  (∀ (ps : List PathInfo) (es : List Entry) (e : Entry), e ∈ es → (pathAt ps e.start).falls = true →
    ∃ d, lowestAt Nak.imageFalloff (entriesAt ps es (fun _ p => p.falls)) = some (Nak.imageFalloff, d)) ∧
  ∀ (w : DWord) (x : BitVec 64), decodeWord x = some w → w.nw = 0x300 → w.pred ≠ 0 → w.ok = false ∧ wordOk x = false

/-- What an operand reads (R108 to R111, R124): registers, immediates, window bytes big-endian with 0 beyond the window, call slip bytes little-endian
with 0 beyond offset 127, halves of a lookup register that is valid, predicates; an absent HDR_OFF reads as zero. Where a word does not issue: one
that no store can hold is refused (R106, R113); a thread that is not READY, whose Scribe is halted or absent, or whose turn it is not, does nothing
(R60, R61, R98, R100); a word beyond the declared WCET is a machine check with source budget (R69); one that fails its parity, or whose nanoword does,
is a machine check and does not act (R97, R98). -/
def Obligations.OperandsAndUnissuedWords : Prop :=
  (
  ∀ th : Thread,
    (∀ n, readOp th (.reg n) = th.g[n]) ∧
    (∀ v, (readOp th (.uimm v)).toNat = v.toNat) ∧
    (∀ v, (readOp th (.simm v)).toInt = v.toInt) ∧
    (∀ off w, (readOp th (.hdrAbs off w)).toNat =
      bigEndian (fun k => th.win.getD k 0) off.toNat (w.toNat + 1)) ∧
    (∀ i d wc, (readOp th (.hdrRel i d wc)).toNat =
      if slipByte th.slip (0x10 + i.toNat) = 0xFF then 0
      else bigEndian (fun k => th.win.getD k 0)
        ((slipByte th.slip (0x10 + i.toNat)).toNat + d.toNat) (2 ^ wc.toNat)) ∧
    (∀ off w, (readOp th (.slip off w)).toNat =
      littleEndian (fun k => if k < 128 then slipByte th.slip k else 0) off.toNat
        (w.toNat + 1)) ∧
    (∀ i hi, (readOp th (.lookup i hi)).toNat =
      if th.l[i].valid then th.l[i].val.toNat / 2 ^ (if hi then 64 else 0) % 2 ^ 64 else 0) ∧
    (∀ i, (readOp th (.pred i)).toNat = if bit th.t i.val then 1 else 0)) ∧
  (
  ∀ (i : Instr) (t : Tid) (w : DWord) (s : State),
    i.dword = some (t, w) →
    (w.ok = false → exec i s = .refused (.badWord w.nw.toNat)) ∧
    (w.ok = true → ((s.thread t).state ≠ .ready ∨
        scribeIdx t.cluster.val t.scribe.val ∈ s.halted ∨
        t.scribe.val ∈ (s.cluster t.cluster.val).noPhys ∨
        s.nextThread t.cluster.val t.scribe.val ≠ some t.thread.val) → exec i s = .next s) ∧
    (w.ok = true → MayFetch s t → (s.thread t).wcet ≤ (s.thread t).issued →
        exec i s = exec (.machineCheck t .budget ⟨0, 0⟩) s) ∧
    (w.ok = true → MayFetch s t → (s.thread t).issued < (s.thread t).wcet → ∀ key, s.fetchBad t = some key →
        ∃ s', exec i s = .next s' ∧ s' = s.machineCheck t (some key) ∧ s'.halted = s.halted ++ [scribeIdx t.cluster.val t.scribe.val]))

/-- HASH (R115): a length of 0 leaves A unchanged; CRC-32C of the input bytes, which are those of the register sequence in
the order of R64; Toeplitz is the exclusive OR, over the input bits set, of the 32 key bits from that bit's place. No
flag changes. The CRC-32C of "123456789" is 0xE306_9283. A Toeplitz length above 36, or a key register of a CRC-32C, is no word that a store can
hold, and the loader refuses it. -/
def Obligations.HashFollowsAlgorithms : Prop :=
  (crc32 polyC [0x31, 0x32, 0x33, 0x34, 0x35, 0x36, 0x37, 0x38, 0x39]).toNat = 0xE3069283 ∧
  (∀ (p : BitVec 4) (a : Operand) (n : Fin 32) (c : BitVec 12),
    (c.toNat / 2048 = 1 ∧ 36 < c.toNat % 64) ∨ (c.toNat / 2048 = 0 ∧ c.toNat / 64 % 32 ≠ 0) →
    (⟨0x012, p, a, .reg n, .uimm c⟩ : DWord).ok = false ∧
    ∀ x, decodeWord x = some ⟨0x012, p, a, .reg n, .uimm c⟩ → wordOk x = false) ∧
  ∀ (t : Tid) (p : BitVec 4) (a : Operand) (n : Fin 32) (c : BitVec 12)
    (s : State),
    MayIssue s t → Acts (.hash t p a n c) t ⟨0x012, p, a, .reg n, .uimm c⟩ s →
    ∃ s', exec (.hash t p a n c) s = .next s' ∧ OnlyThread s t s' ∧
      SameMem s s' ∧ MovesOn (s.thread t) (s'.thread t) ∧
      OnlyResult (s.thread t) (s'.thread t) ∧
      Flags (s.thread t) (s'.thread t) none none none none ∧
      (c.toNat % 64 = 0 → OnlyMoved (s.thread t) (s'.thread t)) ∧
      (c.toNat % 64 ≠ 0 → ∃ v : BitVec 64, Wrote (s.thread t) (s'.thread t) v a ∧ v.toNat < 2 ^ 32 ∧
        let g := (s.thread t).g
        let input := fun k : Nat => BitVec.ofNat 8 (g[(n + Fin.ofNat 32 (k / 8) : Fin 32)].toNat / 256 ^ (7 - k % 8))
        (c.toNat / 2048 = 0 → v.toNat =
          (crc32 polyC ((List.range (c.toNat % 64)).map input)).toNat) ∧
        (c.toNat / 2048 = 1 → ∀ j < 32, bit v (31 - j) =
          decide (((List.range (8 * (c.toNat % 64))).countP (fun i =>
            bit (input (i / 8)) (7 - i % 8) &&
            bit g[(Fin.ofNat 32 (c.toNat / 64 % 32) + Fin.ofNat 32 ((i + j) / 64) : Fin 32)]
              (63 - (i + j) % 64))) % 2 = 1)))

/-- CNT, MIRROR, BFREE, LEARN and UPD append their commit-buffer entry, or none for an UPD whose register holds no hit, and change nothing else (R72,
R122, R125, R129, R131, R133, R174). POST (R126): for a valid table of the Stacks and an index below its COUNT the write appended holds the record's
address and bytes, the record's length of the sequence at C in write mode and 8 bytes in add mode; for any other table or index no write is appended,
and the entry that the model keeps in its place only counts LOOKUP_ERR at the commit. -/
def Obligations.DeferredWordsAndPostsAppend : Prop :=
  (
  ∀ (i : Instr) (t : Tid) (w : DWord) (s : State),
    MayIssue s t → Acts i t w s →
    w.nw ∈ [0x500, 0x410, 0x702, 0x211, 0x210] →
    ∃ s', exec i s = .next s' ∧ OnlyThread s t s' ∧ SameMem s s' ∧
      MovesOn (s.thread t) (s'.thread t) ∧
      OnlyMoved { s.thread t with buf := (s.thread t).buf ++ (deferred s t i).toList }
        (s'.thread t)) ∧
  (
  ∀ (t : Tid) (p : BitVec 4) (tbl : BitVec 8) (b : Operand) (n : Fin 32)
    (s : State),
    MayIssue s t → Acts (.post t p tbl b n) t ⟨0x212, p, .table tbl, b, .reg n⟩ s →
    ∃ s' e, exec (.post t p tbl b n) s = .next s' ∧ OnlyThread s t s' ∧
      SameMem s s' ∧ MovesOn (s.thread t) (s'.thread t) ∧
      OnlyMoved { s.thread t with buf := (s.thread t).buf ++ [e] } (s'.thread t) ∧
      let d := s.dirLive (sliceNo t / 2) tbl.toNat
      let idx := (readOp (s.thread t) b).toNat % 2 ^ 32
      if dirValid d = true ∧ dirKind d = 6 ∧ idx < (d.getD 2 0).toNat then
        ∃ x : PostW, e = .post x ∧
          x.addr = dirAddr d + idx * dirRecord d ∧
          x.add = dirB d 4 31 ∧ x.quad = sliceNo t / 2 ∧
          (x.add = true → x.data.length = 8 ∧ leNat x.data = (s.thread t).g[n].toNat) ∧
          (x.add = false → x.data.length = dirRecord d ∧
            leNat x.data =
              sequence (s.thread t) n (dirRecord d / 8) %
                256 ^ dirRecord d)
      else e = .postErr)

namespace Sys2Proof.Spec

open Sys2Proof.Machine

/-- The bytes of the frame, without FCS, as the run holds it (R118). -/
def frameBytes (th : Thread) : List Byte := th.win ++ th.tail

/-- Every HDR_OFF entry other than 0xFF becomes f of it, and every other call slip byte is as before (R119). -/
def Offsets (th u : Thread) (f : Nat → Nat) : Prop :=
  ∀ k, (slipByte u.slip k).toNat =
    if 0x10 ≤ k ∧ k < 0x30 ∧ slipByte th.slip k ≠ 0xFF then f (slipByte th.slip k).toNat else (slipByte th.slip k).toNat

/-- Of a thread, only window, tail and call slip, and what moving on changes. -/
def OnlyFrame (th u : Thread) : Prop :=
  u = { th with win := u.win, tail := u.tail, slip := u.slip, pc := u.pc, issued := u.issued, loop := u.loop }

/-- Insertion of n zero bytes at o (R118, R119). -/
def Inserted (th u : Thread) (o n : Nat) : Prop :=
  frameBytes u = th.win.take o ++ List.replicate n 0 ++ th.win.drop o ++ th.tail ∧
  u.win.length = min 256 (th.win.length + n) ∧
  Offsets th u (fun e => if e < o then e else if 255 ≤ e + n then 255 else e + n)

/-- Deletion of m bytes at o (R118, R119): the window is not refilled. -/
def Deleted (th u : Thread) (o m : Nat) : Prop :=
  u.win = th.win.take o ++ th.win.drop (o + m) ∧ u.tail = th.tail ∧
  Offsets th u (fun e => if e < o then e else if e < o + m then 255 else e - m)

end Sys2Proof.Spec

/-- LDH and STH (R117): bytes of the window, big-endian, into A; the low C bytes of B, big-endian, into the window. INSH, DELH and ALIGN (R118, R119):
zero bytes are inserted and what leaves the window begins the tail; bytes are deleted and the window shrinks; HDR_OFF entries follow; a count of 0, or
an absent HDR_OFF, changes nothing. -/
def Obligations.HeaderWordsMoveBytes : Prop :=
  (
  ∀ (i : Instr) (t : Tid) (w : DWord) (s : State),
    MayIssue s t → Acts i t w s → (w.nw = 0x100 ∨ w.nw = 0x101) →
    ∃ s', exec i s = .next s' ∧ OnlyThread s t s' ∧ SameMem s s' ∧
      MovesOn (s.thread t) (s'.thread t) ∧ OnlyResult (s.thread t) (s'.thread t) ∧
      Flags (s.thread t) (s'.thread t) none none none none ∧
      (∀ p a b c, i = .ldh t p a b c → ∃ v : BitVec 64, Wrote (s.thread t) (s'.thread t) v a ∧
        v.toNat = bigEndian (fun k => (s.thread t).win.getD k 0)
          (readOp (s.thread t) b).toNat c.toNat) ∧
      (∀ p a b c, i = .sth t p a b c →
        WroteWindow (s.thread t) (s'.thread t) (readOp (s.thread t) a).toNat c.toNat
          (readOp (s.thread t) b) ∧
        (s'.thread t).g = (s.thread t).g ∧ (s'.thread t).t = (s.thread t).t ∧ (s'.thread t).slip = (s.thread t).slip)) ∧
  (
  ∀ (i : Instr) (t : Tid) (w : DWord) (s : State),
    MayIssue s t → Acts i t w s → w.nw ∈ [0x102, 0x103, 0x104] →
    ∃ s', exec i s = .next s' ∧ OnlyThread s t s' ∧ SameMem s s' ∧
      MovesOn (s.thread t) (s'.thread t) ∧ OnlyFrame (s.thread t) (s'.thread t) ∧
      let th := s.thread t
      let u := s'.thread t
      (∀ p a b, i = .insh t p a b →
        let o := min (readOp th a).toNat th.win.length
        let n := (readOp th b).toNat % 256
        if n = 0 then OnlyMoved th u else Inserted th u o n) ∧
      (∀ p a b, i = .delh t p a b →
        let o := min (readOp th a).toNat th.win.length
        let n := (readOp th b).toNat % 256
        if n = 0 then OnlyMoved th u
        else Deleted th u o (min n (th.win.length - o))) ∧
      (∀ p a, i = .align t p a →
        let e := slipByte th.slip (0x10 + a.toNat)
        if e = 0xFF ∨ e = 0 then OnlyMoved th u
        else Deleted th u 0 (min e.toNat th.win.length)))

namespace Sys2Proof.Spec

open Sys2Proof.Machine

/-! ### Lookups (R122 to R124) -/

/-- Outside thread t, what its issue notes and device memory, nothing has changed. -/
def OnlyThreadAndMem (s : State) (t : Tid) (s' : State) : Prop :=
  s' = { s with
    threads := s'.threads
    issuer := s'.issuer
    power := { s.power with words := s'.power.words }
    mem := s'.mem } ∧
  (∀ k, k ≠ tidIdx t → s'.threadN k = s.threadN k) ∧ NotedIssue s t s'

/-- The lookup register, the operation and the table of a lookup word. -/
def lookupOf : Instr → Option (LkOp × Fin 4 × Operand × BitVec 8)
  | .lkx _ _ i b tbl => some (.exact, i, b, tbl)
  | .lkp _ _ i b tbl => some (.lpm, i, b, tbl)
  | .lkt _ _ i b tbl => some (.tern, i, b, tbl)
  | _ => none

/-- The entry of slot sl of unit b.2 of wing b.1 is valid and holds a key (R163). -/
def exactHolds (s : State) (e : DirEntry) (key : Nat) (b : Nat × Nat) (sl : Nat) : Prop :=
  s.exactEntry e b.1 b.2 sl % 2 = 1 ∧ exactKey e (s.exactEntry e b.1 b.2 sl) = key

/-- Ternary entry i of a wing is valid and matches a key under its mask (R170). -/
def ternHolds (s : State) (w i key : Nat) : Prop :=
  let n := leNat (memReadN s.mem (wingAddr w (64 * (0xF8000 + i))) 40)
  n % 2 = 1 ∧ (key ^^^ (n / 2 ^ 32 % 2 ^ 144)) &&& (n / 2 ^ 176 % 2 ^ 144) = 0

/-- The code under which a table counts a lookup (Table 14.1): 0 hit, 1 miss, 2 error. -/
def codeOf : LkOut → Nat
  | .hit _ _ => 0
  | .miss => 1
  | .err => 2

/-- What LKW delivers into a lookup register and its predicate (R124). -/
def Delivered (x : LSlot) (y : LSlot) (ti : Bool) : Prop :=
  match x.issued with
  | some (_, .hit r loc) => y.val = r ∧ y.valid = true ∧ y.hit = true ∧ y.loc = loc ∧ y.issued = none ∧ ti = false
  | some (_, _) => y.val = 0 ∧ y.valid = true ∧ y.hit = false ∧ y.issued = none ∧ ti = true
  | none => y = x ∧ ti = true

end Sys2Proof.Spec

/-- What a lookup of a key answers (R164, R168, R170, R171), where no unit read is uncorrectable: an EXACT hit names a slot
of a candidate bucket that is valid and holds the key, with its RESULT, and a miss means that there is none; an INDEXED
lookup misses at or beyond COUNT and at an entry with V = 0; a TERNARY hit is the lowest matching entry; a longest-prefix
hit is at the greatest candidate length that holds the prefix, and a miss means that none does and no default is given. -/
def Obligations.LookupFindsEntry : Prop :=
  ∀ (s : State) (sl tbl key : Nat),
    let e := s.dirLive (sl / 2) tbl
    dirValid e = true →
    (dirKind e = 0 → s.anyErr (exactBuckets e sl key) = false →
      ((s.lookup .exact sl tbl key).2 = .miss ∧
        ∀ b ∈ exactBuckets e sl key, ∀ k < exactSlots e,
          ¬ exactHolds s e key b k) ∨
      ∃ b ∈ exactBuckets e sl key, ∃ k < exactSlots e,
        exactHolds s e key b k ∧
        (s.lookup .exact sl tbl key).2 =
          .hit (BitVec.ofNat 128 (exactRes e (s.exactEntry e b.1 b.2 k)))
            (some ⟨b.1, 64 * b.2 + k * dirEsize e, tbl, key⟩)) ∧
    (dirKind e = 5 →
      (dirF e 2 23 0 ≤ key → (s.lookup .exact sl tbl key).2 = .miss) ∧
      (key < dirF e 2 23 0 →
        let at' := indexedAt e sl key
        s.unitErr at'.1 (at'.2 / 64) = false →
        let n := leNat (memReadN s.mem
          (wingAddr at'.1 at'.2) (dirEsize e))
        (s.lookup .exact sl tbl key).2 =
          if n % 2 = 1 then .hit (BitVec.ofNat 128 (n / 2 ^ 8 % 2 ^ dirResW e))
            (some ⟨at'.1, at'.2, tbl, 0⟩)
          else .miss)) ∧
    (dirKind e = 4 →
      (∀ i < dirF e 2 15 0,
        s.unitErr (sl / 2 * 2) (0xF8000 + (dirF e 2 31 16 + i)) = false) →
      ((s.lookup .tern sl tbl key).2 = .miss ∧ ∀ i < dirF e 2 15 0,
        ¬ ternHolds s (sl / 2 * 2) (dirF e 2 31 16 + i) key) ∨
      ∃ i < dirF e 2 15 0,
        ternHolds s (sl / 2 * 2) (dirF e 2 31 16 + i) key ∧
        (∀ j < i, ¬ ternHolds s (sl / 2 * 2) (dirF e 2 31 16 + j) key) ∧
        ∃ r loc, (s.lookup .tern sl tbl key).2 = .hit r (some loc) ∧
          r.toNat = leNat (memReadN s.mem (wingAddr (sl / 2 * 2)
            (64 * (0xF8000 + (dirF e 2 31 16 + i)))) 40) / 2 ^ 8 % 2 ^ 24 ∧
          loc.wing = sl / 2 * 2 ∧ loc.byte = 64 * (0xF8000 + (dirF e 2 31 16 + i))) ∧
    ((dirKind e = 1 ∨ (dirKind e = 2 ∧ dirB e 6 31 = false) ∨
        dirKind e = 3) →
      let cs := s.lpmCandidates e sl key
      s.anyErr (cs.flatMap (lpmBucketsOf e sl key)) = false →
      (∀ r loc, (s.lookup .lpm sl tbl key).2 = .hit r (some loc) → ∃ c ∈ cs, ∃ n,
        s.lpmLength e tbl sl key c = some (n, loc) ∧ r = BitVec.ofNat 128 n ∧
        ∀ c' ∈ cs, c.1 < c'.1 → s.lpmLength e tbl sl key c' = none) ∧
      ((∀ c ∈ cs, s.lpmLength e tbl sl key c = none) → (s.lookup .lpm sl tbl key).2 =
        if dirB e 5 31 then .hit (BitVec.ofNat 128 (dirF e 5 23 0)) none else .miss))

/-- LKX, LKP and LKT (R122, R123): the key is formed from B by the table's key width, Li is not valid and the lookup is the one outstanding into it,
whatever was outstanding before; the outcome is that of the table of the slice's pair. Memory is as before, but for bit H of the entry that an LKX hit
(R163). LOOKUP_RESULT, LKW and LKW_RELEASE (R62, R123, R124): the result of the lookup outstanding into Li of a run not yet retired arrives, once, and
is counted under its outcome; LKW with a mask blocks the thread on the named registers, and with a mask of 0 does nothing; when every named register
has its result or no lookup outstanding, the thread is READY, each named Li and Ti is set by the outcome, and the others are as before. -/
def Obligations.LookupsAreIssuedAndDelivered : Prop :=
  (
  ∀ (c : Instr) (t : Tid) (w : DWord) (s : State)
    (op : LkOp) (i : Fin 4) (b : Operand) (tbl : BitVec 8),
    MayIssue s t → Acts c t w s → lookupOf c = some (op, i, b, tbl) →
    let sl := sliceNo t
    let e := s.dirLive (sl / 2) tbl.toNat
    let key := lowBits (s.thread t) b (dirKeyW e)
    ∃ s' o, exec c s = .next s' ∧ OnlyThreadAndMem s t s' ∧
      MovesOn (s.thread t) (s'.thread t) ∧
      OnlyMoved { s.thread t with l := (s'.thread t).l } (s'.thread t) ∧
      (∀ j : Fin 4, j ≠ i → (s'.thread t).l[j] = (s.thread t).l[j]) ∧
      (s'.thread t).l[i].valid = false ∧ (s'.thread t).l[i].issued = some (tbl.toNat, o) ∧
      (s'.thread t).l[i].arrived = false ∧
      o = (s.lookup op sl tbl.toNat key).2 ∧
      (dirValid e = false ∨ dirKind e = 6 → o = .err) ∧
      (∀ a, memRead s'.mem a = memRead s.mem a ∨
        (op = .exact ∧ ∃ r loc, o = .hit r (some loc) ∧ a = wingAddr loc.wing loc.byte ∧
          memRead s'.mem a = memRead s.mem a ||| 4))) ∧
  (
  (∀ (t : Tid) (i : Fin 4) (s : State) (tbl : Nat) (o : LkOut),
    ((s.thread t).state = .ready ∨ (s.thread t).state = .blocked) → (s.thread t).l[i].issued = some (tbl, o) →
    (s.thread t).l[i].arrived = false →
    ∃ s', exec (.lookupResult t i) s = .next s' ∧ s' = { s with threads := s'.threads } ∧
      (∀ k, k ≠ tidIdx t → s'.threadN k = s.threadN k) ∧
      s'.thread t = { s.thread t with
        l := (s.thread t).l.set i { (s.thread t).l[i] with arrived := true }
        looks := (s.thread t).looks ++ [(tbl, codeOf o)] }) ∧
  (∀ (t : Tid) (p : BitVec 4) (mask : BitVec 12) (s : State),
    MayIssue s t → Acts (.lkw t p mask) t ⟨0x208, p, .uimm mask, .none, .none⟩ s →
    ∃ s', exec (.lkw t p mask) s = .next s' ∧ OnlyThread s t s' ∧
      SameMem s s' ∧ MovesOn (s.thread t) (s'.thread t) ∧
      OnlyMoved (if mask.toNat % 16 = 0 then s.thread t
        else { s.thread t with state := .blocked, waiting := mask.extractLsb' 0 4 }) (s'.thread t)) ∧
  (∀ (t : Tid) (s : State), (s.thread t).state = .blocked →
    (∀ i : Fin 4, bit (s.thread t).waiting i.val = true →
      (s.thread t).l[i].issued = none ∨ (s.thread t).l[i].arrived = true) →
    ∃ s', exec (.lkwRelease t) s = .next s' ∧ s' = { s with threads := s'.threads } ∧
      (∀ k, k ≠ tidIdx t → s'.threadN k = s.threadN k) ∧
      s'.thread t = { s.thread t with state := .ready, waiting := 0, l := (s'.thread t).l, t := (s'.thread t).t } ∧
      ∀ i : Fin 4, if bit (s.thread t).waiting i.val = true then
          Delivered (s.thread t).l[i] (s'.thread t).l[i] (bit (s'.thread t).t i.val)
        else (s'.thread t).l[i] = (s.thread t).l[i] ∧
          bit (s'.thread t).t i.val = bit (s.thread t).t i.val))

namespace Sys2Proof.Spec

open Sys2Proof.Machine

/-! ### Flow control and packet fate (Tables 4.7 and 4.8) -/

/-- The run goes on at a target; a branch to the first word after the loop body it is in ends the loop (R127, R128). -/
def Jumped (th u : Thread) (target : Nat) : Prop :=
  u = { th with
    pc := target
    issued := th.issued + 1
    loop := match th.loop with
      | none => none
      | some l => if l.after = target then none else some l }

/-- The fate a retiring word gives the run (R68, R129). -/
def fateOf' : Instr → Option Fate
  | .exit _ _ => some .exit
  | .fwd _ _ => some .fwd
  | .drop _ _ => some .drop
  | .repl _ _ => some .repl
  | .punt _ _ _ => some .punt
  | .recirc _ _ => some .recirc
  | _ => none

/-- The value that PUNT_CODE takes: A[15:0] where A is present (Table 4.8). -/
def puntCode (th : Thread) : Instr → Option Nat
  | .punt _ _ a => if a = .none then none else some ((readOp th a).toNat % 2 ^ 16)
  | _ => none

/-- The call slip bytes that a SLIP word or SASEL writes, with the value and the first byte: DEST, TC_DP, EG_ENTRY and POOL,
SA. -/
def slipWord (th : Thread) : Instr → Option (Nat × Nat × Nat)
  | .slipDest _ _ a b => some (0x30, 4, a.toNat % 16 * 2 ^ 28 + (readOp th b).toNat % 2 ^ 28)
  | .slipClass _ _ a b => some (0x07, 1, (readOp th a).toNat % 8 + 8 * ((readOp th b).toNat % 4))
  | .slipEgr _ _ a b => some (0x3E, 2, (readOp th a).toNat % 64 + 256 * ((readOp th b).toNat % 16))
  | _ => none

end Sys2Proof.Spec

/-- BR, BRC and LOOP (R127, R128): a branch goes to the word's own address plus the displacement, and BRC goes on at the next word where its condition
fails; LOOP outside a loop body enters the body for its count of passes, and goes on after the body for a count of 0 or gated false. EXIT, FWD, DROP,
REPL, PUNT and RECIRC retire the run with their fate (R67, R68, R129): the thread is RETIRED, its place in commit order is behind the runs that
retired before, its fate is the last entry of its commit buffer, and PUNT with an operand sets PUNT_CODE. -/
def Obligations.FlowAndFateWordsSteerTheRun : Prop :=
  (
  ∀ (c : Instr) (t : Tid) (w : DWord) (s : State),
    MayIssue s t → Acts c t w s → w.nw ∈ [0x300, 0x301, 0x302] →
    ∃ s', exec c s = .next s' ∧ OnlyThread s t s' ∧ SameMem s s' ∧
      let th := s.thread t
      let u := s'.thread t
      (∀ d, c = .br t d → Jumped th u (th.pc + d.toNat)) ∧
      (∀ p d, c = .brc t p d →
        if predHolds th p then Jumped th u (th.pc + d.toNat)
        else MovesOn th u ∧ OnlyMoved th u) ∧
      (∀ p n body, c = .loop t p n body → th.loop = none →
        if predHolds th p = true ∧ n.toNat ≠ 0 then
          u = { th with
            pc := th.pc + 1
            issued := th.issued + 1
            loop := some ⟨th.pc + 1, th.pc + 1 + body.toNat, n.toNat - 1⟩ }
        else u = { th with pc := th.pc + 1 + body.toNat, issued := th.issued + 1 })) ∧
  (
  ∀ (c : Instr) (t : Tid) (w : DWord) (s : State)
    (f : Fate),
    MayIssue s t → Acts c t w s → fateOf' c = some f →
    ∃ s', exec c s = .next s' ∧ s'.retired = s.retired + 1 ∧
      OnlyThread { s with retired := s.retired + 1 } t s' ∧ SameMem s s' ∧
      s'.thread t = { s.thread t with
        state := .retired
        order := s.retired
        buf := (s.thread t).buf ++ [.fate f]
        loop := none
        issued := (s.thread t).issued + 1
        pc := (s'.thread t).pc
        slip := (s'.thread t).slip } ∧
      ∀ k, slipByte (s'.thread t).slip k =
        match puntCode (s.thread t) c with
        | none => slipByte (s.thread t).slip k
        | some v => if 0x48 ≤ k ∧ k < 0x4C then BitVec.ofNat 8 (v / 256 ^ (k - 0x48))
          else slipByte (s.thread t).slip k)

namespace Sys2Proof.Spec

open Sys2Proof.Machine

/-! ### Counters, time, buffers (Tables 4.9 to 4.11) -/

/-- The 64-bit value that CREAD, TSTAMP or QDEPTH writes: the committed value of device counter B[18:0], 0 where it is not
counted; the ns field of the output timescale below the tick count; the depth sampled at the last boundary. -/
def reading (s : State) (th : Thread) : Instr → Option (Operand × Nat)
  | .cread _ _ a b =>
    let n := (readOp th b).toNat % 2 ^ 19
    some (a, if ctrExists n = true ∧ s.ctrShown n = true then (SMap.find 0 s.ctrs.ctr n).toNat else 0)
  | .tstamp _ _ a dt => some (a, (s.oAt dt).toNat / 2 ^ 32 + 2 ^ 32 * (s.alm.tick.toNat % 2 ^ 32))
  | .qdepth _ _ a b => some (a, SMap.find 0 s.tm.depthAt ((readOp th b).toNat % 2 ^ 18) % 2 ^ 64)
  | _ => none

end Sys2Proof.Spec

/-- SLIP.DEST, SLIP.CLASS and SLIP.EGR write their call slip fields at ingress and change nothing at egress, where those fields are read-only (R66,
R129, R130); SASEL writes SA with its valid bit in either run (R133). CREAD, TSTAMP and QDEPTH write the value that they read and change nothing else
(R75, R131, R132, R355, R358). -/
def Obligations.SlipAndReadingWordsWriteValues : Prop :=
  (
  ∀ (c : Instr) (t : Tid) (w : DWord) (s : State),
    MayIssue s t → Acts c t w s → w.nw ∈ [0x420, 0x421, 0x422, 0x700] →
    ∃ s', exec c s = .next s' ∧ OnlyThread s t s' ∧ SameMem s s' ∧
      MovesOn (s.thread t) (s'.thread t) ∧
      OnlyMoved { s.thread t with slip := (s'.thread t).slip } (s'.thread t) ∧
      let old := slipByte (s.thread t).slip
      let new := slipByte (s'.thread t).slip
      (∀ o n v, slipWord (s.thread t) c = some (o, n, v) →
        ((s.thread t).egress = true → ∀ k, new k = old k) ∧
        ((s.thread t).egress = false → ∀ k, new k =
          if o = 0x07 ∧ k = 0x07 then old k &&& 0xE0#8 ||| BitVec.ofNat 8 v
          else if o = 0x3E ∧ k = 0x3E then old k &&& 0xC0#8 ||| BitVec.ofNat 8 (v % 64)
          else if o = 0x3E ∧ k = 0x3F then old k &&& 0xF0#8 ||| BitVec.ofNat 8 (v / 256)
          else if o ≤ k ∧ k < o + n then BitVec.ofNat 8 (v / 256 ^ (k - o))
          else old k)) ∧
      (∀ p a, c = .sasel t p a → ∀ k, new k =
        if 0x40 ≤ k ∧ k < 0x44 then
          BitVec.ofNat 8 (((readOp (s.thread t) a).toNat % 2 ^ 18 + 2 ^ 31) / 256 ^ (k - 0x40))
        else old k)) ∧
  (
  ∀ (c : Instr) (t : Tid) (w : DWord) (s : State)
    (a : Operand) (x : Nat),
    MayIssue s t → Acts c t w s →
    reading s (s.thread t) c = some (a, x) →
    ∃ s' v, exec c s = .next s' ∧ OnlyThread s t s' ∧ SameMem s s' ∧
      MovesOn (s.thread t) (s'.thread t) ∧ OnlyResult (s.thread t) (s'.thread t) ∧
      Flags (s.thread t) (s'.thread t) none none none none ∧
      Wrote (s.thread t) (s'.thread t) v a ∧ v.toNat = x)

/-- METER (R78, R131, R240): the colour from the buckets as they stand, by the single-rate or the two-rate marker, in colour-aware mode with the
packet's own colour (the markers' tests are the RFCs', log 21); the debit is appended and the buckets are left as they are. BALLOC (R77, R133): a
buffer from the cache of the pool, or of a pool of its fallback chain, is reserved with an entry of the commit buffer, A is its handle and Z is 0;
where none is taken A is 0, Z is 1 and nothing is appended. Where the pool is present and its cache holds a buffer, the first of the cache is the one,
and the cache keeps the rest. Only pools, registers and counters outside the thread may have changed. -/
def Obligations.MeterColoursAndBallocReserves : Prop :=
  (
  ∀ (t : Tid) (p : BitVec 4) (a b c : Operand) (s : State),
    MayIssue s t → Acts (.meter t p a b c) t ⟨0x501, p, a, b, c⟩ s →
    let th := s.thread t
    let sl := sliceNo t
    let m := (readOp th b).toNat % 16384
    let n := if c = .none then littleEndian (slipByte th.slip) 0 2
      else (readOp th c).toNat
    let w0 := s.cfg (Reg.tmMeter sl m 0)
    let w2 := (s.cfg (Reg.tmMeter sl m 2)).toNat
    let bk := s.meterAt sl m
    let own := min 2 ((slipByte th.slip 7).toNat / 8 % 4)
    let pre := if bit w0 30 = true then own else 0
    let inC := w2 / 2 ^ 16 ≠ 0 ∧ (n : Int) * 6250 ≤ bk.c
    let inP := w2 % 2 ^ 16 ≠ 0 ∧ (n : Int) * 6250 ≤ bk.p
    ∃ s' colour takeC takeP, exec (.meter t p a b c) s = .next s' ∧
      OnlyThread s t s' ∧ SameMem s s' ∧ MovesOn th (s'.thread t) ∧
      OnlyResult { th with buf := th.buf ++ [.meter m takeC takeP] } (s'.thread t) ∧
      Flags th (s'.thread t) none none none none ∧
      Wrote th (s'.thread t) (BitVec.ofNat 64 colour) a ∧
      (bit w0 31 = true →
        (pre = 2 ∨ ¬ inP → (colour, takeC, takeP) = (2, 0, 0)) ∧
        (pre ≠ 2 → inP → (pre = 1 ∨ ¬ inC) → (colour, takeC, takeP) = (1, 0, n)) ∧
        (pre = 0 → inP → inC → (colour, takeC, takeP) = (0, n, n))) ∧
      (bit w0 31 = false →
        (pre = 0 → inC → (colour, takeC, takeP) = (0, n, 0)) ∧
        ((pre ≠ 0 ∨ ¬ inC) → pre ≠ 2 → inP → (colour, takeC, takeP) = (1, 0, n)) ∧
        ((pre ≠ 0 ∨ ¬ inC) → (pre = 2 ∨ ¬ inP) → (colour, takeC, takeP) = (2, 0, 0)))) ∧
  (
  ∀ (t : Tid) (p : BitVec 4) (a b : Operand) (s : State),
    MayIssue s t → Acts (.balloc t p a b) t ⟨0x701, p, a, b, .none⟩ s →
    let th := s.thread t
    let pool := (readOp th b).toNat % 16
    let quad := sliceNo t / 2
    ∃ s', ∃ got : Option Buf, exec (.balloc t p a b) s = .next s' ∧
      OnlyThread { s with pools := s'.pools, regs := s'.regs, ctrs := s'.ctrs } t s' ∧
      SameMem s s' ∧ MovesOn th (s'.thread t) ∧
      OnlyResult { th with
        buf := th.buf ++ (got.map CEntry.balloc).toList
        taken := th.taken ++ got.toList } (s'.thread t) ∧
      Flags th (s'.thread t) (some got.isNone) none none none ∧
      Wrote th (s'.thread t)
        (match got with
         | none => 0
         | some x => BitVec.ofNat 64 (x.pool * 2 ^ 60 + x.num % 2 ^ 32)) a ∧
      (∀ n rest, s.poolCount pool ≠ 0 → (s.pool pool).cache quad = n :: rest →
        got = some ⟨pool, n⟩ ∧ (s'.pool pool).cache quad = rest ∧
        ∀ q, q ≠ quad → (s'.pool pool).cache q = (s.pool pool).cache q))

/-- IOAM (R132, R366; the header's layout is RFC 9197's, log 23). An absent HDR_OFF changes nothing but Z, which is cleared.
With RemainingLen below NodeLen the Overflow flag is set, no data is written and Z is set. Otherwise, where NodeLen holds
the data and trace type bit 22 is clear, the data is written, into the slot that RemainingLen indicates, which is lowered
by NodeLen (C = 0), or behind the option header, where NodeLen x 4 bytes have been inserted (C = 1); Z is cleared. -/
def Obligations.IoamUpdatesTraceOption : Prop :=
  ∀ (t : Tid) (p : BitVec 4) (a b : Operand) (c : BitVec 12) (s : State),
    MayIssue s t → Acts (.ioam t p a b c) t ⟨0x602, p, a, b, .uimm c⟩ s →
    let th := s.thread t
    ∃ s', exec (.ioam t p a b c) s = .next s' ∧ OnlyThread s t s' ∧
      SameMem s s' ∧ MovesOn th (s'.thread t) ∧
      let u := s'.thread t
      OnlyFrame { th with z := u.z } u ∧
      (hdrPlace th a = none → u.z = false ∧ u.win = th.win ∧ u.tail = th.tail ∧ u.slip = th.slip) ∧
      (∀ o, hdrPlace th a = some o →
        let at' := fun k : Nat => th.win.getD k 0
        let h := bigEndian at' (o + 2) 2
        let nodeLen := h / 2048
        let rem := h % 128
        let trace := bigEndian at' (o + 4) 3
        let data := s.ioamData th (readOp th b) trace
        trace / 2 % 2 = 0 → data.length ≤ nodeLen * 4 →
        (rem < nodeLen → u.z = true ∧ u.tail = th.tail ∧ u.slip = th.slip ∧
          WroteWindow th u (o + 2) 2 (BitVec.ofNat 64 (h ||| 1024))) ∧
        (nodeLen ≤ rem → c = 0 → u.z = false ∧ u.tail = th.tail ∧ u.slip = th.slip ∧
          u.win.length = th.win.length ∧
          ∀ k < th.win.length, u.win.getD k 0 =
            if o + 2 ≤ k ∧ k < o + 4 then BitVec.ofNat 8 ((h - nodeLen) / 256 ^ (o + 3 - k))
            else
              let first := o + 8 + 4 * (rem - nodeLen)
              if first ≤ k ∧ k < first + data.length then data.getD (k - first) 0 else th.win.getD k 0) ∧
        (nodeLen ≤ rem → c = 1 → u.z = false ∧ u.tail.length + u.win.length = th.tail.length + th.win.length + 4 * nodeLen ∧
          (nodeLen = 0 → u.slip = th.slip) ∧
          (nodeLen ≠ 0 → Offsets th u (fun e =>
            let first := min (o + 8) th.win.length
            if e < first then e else if 255 ≤ e + 4 * nodeLen then 255 else e + 4 * nodeLen)) ∧
          ∀ k < u.win.length, o + 8 ≤ th.win.length → u.win.getD k 0 =
            if k < o + 8 then th.win.getD k 0
            else if k < o + 8 + data.length then data.getD (k - (o + 8)) 0
            else if k < o + 8 + 4 * nodeLen then 0
            else th.win.getD (k - 4 * nodeLen) 0))

/-! ### Reset, clocks and phases (chapters 15 and 16) -/

namespace Sys2Proof.Spec

open Sys2Proof.Machine

/-- Only the record of phase and clocks has changed. -/
def OnlyBoot (s t : State) : Prop := t = { s with boot := t.boot }

/-- Every packet and copy that the device holds, and every original that copies share, is in cells of the ODB (R190, R192). -/
def HeldInCells (s : State) : Prop :=
  (∀ p ∈ s.allPkts, ∀ b ∈ p.bufs, b.pool < 16 ∧ s.poolKind b.pool < 2) ∧
  (∀ x ∈ s.tm.shared, ∀ b ∈ x.2.bufs, b.pool < 16 ∧ s.poolKind b.pool < 2)

/-- Only registers have changed, and of them only those of a list. -/
def OnlyRegs (l : List Nat) (s t : State) : Prop := t = { s with regs := t.regs } ∧ SameRegsBut l s t

end Sys2Proof.Spec

/-- RESET_N low resets the whole device, in every state (R396): all of it is as under reset but the burnt life log, the commands that wait
and the model's own records. So every register reads its reset value, and so the data plane sees it; counters are cleared, sessions
closed, and the control stores, the Catalogue, the key store and the SA contexts hold nothing. Its rising edge latches the straps and, with a code of OSC_WAIT that is not refused, opens the start window
(R368, R369); the fused MAC addresses are loaded into HP_MAC and nothing else changes. -/
def Obligations.ResetClearsTheDevice : Prop :=
  (∀ s : State, ∃ t, exec .resetNAssert s = .next t ∧
    t.boot.inReset = true ∧ t.boot.phase = .coldWait ∧
    (∀ ca, t.reg ca = regDefault ca ∧ t.cfg ca = regDefault ca) ∧
    (∀ n, ctr t n = 0) ∧ (∀ i, (t.session i).isOpen = false) ∧ t.dcp.warden = none ∧ t.dcp.epoch = 0 ∧
    (∀ k, (t.cluster k).codex = none ∧ (t.cluster k).prog = none ∧ (t.cluster k).state = .empty) ∧
    (∀ pair i, dirValid (t.dirLive pair i) = false) ∧
    (∀ i, (t.keySlot i).written = false) ∧ (∀ sl i, t.saCtx sl i = 0) ∧
    (∀ a, memRead t.mem a = memDefault) ∧
    t = { State.reset with
      vigil := { Vigil.reset with
        life := s.vigil.life
        seen := t.vigil.seen }
      tm := { Tm.reset with draws := s.tm.draws }
      out := s.out
      nextId := s.nextId
      retired := s.retired
      free := s.free
      pending := s.pending }) ∧
  ∀ (straps : BitVec 10) (s : State), s.boot.inReset = true →
    ∃ t, exec (.resetNRelease straps) s = .next t ∧
      t.boot.inReset = false ∧ t.boot.phase = .coldWait ∧ t.boot.straps = straps ∧
      t.boot.windowOpen = decide (straps.toNat % 16 ≤ 6) ∧
      t = { s with
        boot := t.boot
        regs := t.regs
        dp := t.dp } ∧
      (∀ h, h < 2 →
        (t.reg (Reg.hpMacHi h)).toNat * 2 ^ 32 + (t.reg (Reg.hpMacLo h)).toNat =
          (Config.hpMac h).toNat) ∧
      SameRegsBut [Reg.hpMacLo 0, Reg.hpMacHi 0,
        Reg.hpMacLo 1, Reg.hpMacHi 1] s t

/-- The way from COLD_WAIT to HOST_UP (R368, R370, R371, R397, R400). The window ends and the crystal is tried: proven, the
device is in AON_UP; failed, the window begins again. A loss of REFCLK inside the window is latched and the device stays in
COLD_WAIT. AON_UP leads to REF_CHECK, four windows of REFCLK in range in a row to CORE_UP with K = 8, then the node
controllers start and every memory port trains; with the last outcome the device is in HOST_UP, and a port is mapped
exactly if its outcome is PASS. -/
def Obligations.StartUpMovesThroughThePhases : Prop :=
  (∀ s : State, s.boot.windowOpen = true →
    (∃ t, exec .startWindowEnd s = .next t ∧ t.boot.windowOpen = false ∧ t.boot.proving = true ∧
      t.boot.phase = s.boot.phase ∧ OnlyBoot s t) ∧
    ∃ t, exec .refLostInOscStart s = .next t ∧ t.boot = s.boot ∧
      SetsBit Reg.clkEvents 2 s t ∧
      OnlyRegs [Reg.clkEvents] s t) ∧
  (∀ s : State, s.boot.proving = true →
    (∃ t, exec .xtalProven s = .next t ∧ t.boot.phase = .aonUp ∧ t.boot.proving = false ∧
      OnlyBoot s t) ∧
    ∃ t, exec .xtalProofFail s = .next t ∧ t.boot.phase = s.boot.phase ∧ t.boot.proving = false ∧
      t.boot.windowOpen = true ∧ OnlyBoot s t) ∧
  (∀ s : State, s.boot.phase = .aonUp →
    ∃ t, exec .aonUpEnd s = .next t ∧ t.boot = { s.boot with phase := .refCheck } ∧
      OnlyBoot s t) ∧
  (∀ (m n : Nat) (s : State), s.boot.inReset = false → s.boot.phase ≠ .coldWait →
    102380 ≤ m → m ≤ 102420 → 102380 ≤ n → n ≤ 102420 →
    ∃ t, exec (.refWindowEnd m n) s = .next t ∧
      t.reg Reg.clkRefCnt = BitVec.ofNat 32 m ∧
      t.boot.refGood = min 4 (s.boot.refGood + 1) ∧ t.boot.frefGood = min 4 (s.boot.frefGood + 1) ∧
      (if s.boot.phase = .refCheck ∧ 3 ≤ s.boot.refGood then t.boot.phase = .coreUp ∧ t.power.k = 8
       else t.boot.phase = s.boot.phase ∧ t.power = s.power) ∧
      SameRegsBut [Reg.clkRefCnt] s t ∧
      t = { s with
        boot := t.boot
        power := t.power
        regs := t.regs }) ∧
  (∀ s : State, s.boot.phase = .coreUp →
    ∃ t, exec .coreUpDone s = .next t ∧
      t.boot = { s.boot with
        phase := .memTrain
        nodesReady := true } ∧
      (∀ g, g < 24 → t.gdState g = 1) ∧
      SameRegsBut ((List.range 24).map Reg.gdStatus) s t ∧
      t = { s with
        boot := t.boot
        regs := t.regs }) ∧
  ∀ (rs : List (BitVec 8)) (s : State), s.boot.phase = .memTrain →
    ∃ t, exec (.memTrainDone rs) s = .next t ∧ t.boot = { s.boot with phase := .hostUp } ∧
      (∀ g, g < 24 →
        let r := if 2 ≤ bits s.boot.straps 7 6 then 7 else (rs.getD g 6).toNat
        bits (t.reg (Reg.gdStatus g)) 15 8 = r ∧
        (t.gdMapped g = true ↔ r = 1) ∧ (r ≠ 1 → t.gdState g = 4)) ∧
      SameRegsBut ((List.range 24).map Reg.gdStatus) s t ∧
      t = { s with
        boot := t.boot
        regs := t.regs }

/-- Losing a clock, and the way back (R371, R372, R389, R401). A loss of REFCLK before CORE_UP only starts the four windows
again; from CORE_UP onward it latches REF_LOST, begins the safe stop, and every port that was not DISABLED is in FAULT. A
loss of FREF is latched. When K has come down to 8, two boundaries after the stop began, the core stops: the device is HALTED,
K is 0, and no packet, run or waiting operation is left; after a thermal shutdown the PHYs are off too. With REFCLK back for four windows a device that halted for it
re-enters CORE_UP with the AON-held bits and Vigil's state kept, every other register at its reset value, no session and no
image. -/
def Obligations.ClockLossStopsTheCore : Prop :=
  (∀ s : State, s.boot.inReset = false → s.boot.phase ≠ .coldWait →
    (∃ t, exec .refLost s = .next t ∧ t.boot.refGood = 0 ∧ t.boot.phase = s.boot.phase ∧
      (s.coreOn = false → OnlyBoot s t ∧ t.boot.stop = s.boot.stop) ∧
      (s.coreOn = true → s.boot.stop = none →
        t.boot.stop = some .refLoss ∧ t.boot.stopAge = 0 ∧
        bit (t.reg Reg.clkEvents) 1 = true ∧
        (∀ p, p < 512 → (t.port p).state = .disabled ∨ (t.port p).state = .fault) ∧
        (∀ p, p < 512 → (s.port p).state = .disabled → (t.port p).state = .disabled)) ∧
      (s.rx = [] → HeldInCells s → SameMem s t)) ∧
    ∃ t, exec .frefLost s = .next t ∧ t.boot = { s.boot with frefGood := 0 } ∧
      SetsBit Reg.clkEvents 4 s t ∧
      SameRegsBut [Reg.clkEvents] s t ∧
      t = { s with
        boot := t.boot
        regs := t.regs }) ∧
  (∀ (c : StopCause) (s : State), s.boot.stop = some c → s.power.k ≤ 8 →
    2 ≤ s.boot.stopAge →
    ∃ t, exec .safeStopEnd s = .next t ∧ t.boot.phase = .halted ∧ t.boot.stop = none ∧
      t.boot.haltedBy = some c ∧ t.boot.nodesReady = false ∧ t.power.k = 0 ∧ t.alm.grant = 0 ∧ t.allPkts = [] ∧
      t.dcp.waiting = [] ∧ t.dcp.accepted = [] ∧ t.dp = s.dp ∧ t.vigil = s.vigil ∧
      (c = .refLoss → t.regs = s.regs) ∧
      (c = .thermal → SameRegsBut ((List.range 24).map Reg.gdStatus) s t ∧ (∀ g, g < 24 → t.gdState g = 0) ∧
        (∀ p, t.port p = Port.reset) ∧ t.fabric.lanes = [] ∧ t.rclkA.squelched = true ∧ t.rclkB.squelched = true) ∧
      SameMem s t) ∧
  ∀ s : State, s.boot.phase = .halted → s.boot.haltedBy = some .refLoss → 4 ≤ s.boot.refGood →
    ∃ t, exec .haltedRestart s = .next t ∧ t.boot.phase = .coreUp ∧ t.boot.haltedBy = none ∧
      t.boot.straps = s.boot.straps ∧ t.power.k = 8 ∧
      t.reg Reg.clkEvents = s.reg Reg.clkEvents ∧
      (∀ j, j < 22 → t.reg (Reg.powTemp j) = s.reg (Reg.powTemp j)) ∧
      (∀ ca, ca ∉ aonRegs ++ [Reg.hpMacLo 0, Reg.hpMacHi 0,
        Reg.hpMacLo 1, Reg.hpMacHi 1] →
        t.reg ca = regDefault ca) ∧
      (∀ i, (t.session i).isOpen = false) ∧ t.dcp.epoch = 0 ∧ (∀ n, ctr t n = 0) ∧
      (∀ k, (t.cluster k).codex = none ∧ (t.cluster k).prog = none) ∧ (∀ i, (t.keySlot i).written = false) ∧
      (∀ sl i, t.saCtx sl i = 0) ∧
      t.vigil.state = s.vigil.state ∧ t.vigil.reasons = s.vigil.reasons ∧ t.vigil.life = s.vigil.life

/-! ### The Almanac (chapter 2) -/

/-- A tick boundary in RUNNING with no stop in progress (R38, R42, R43, R52, R54, R58, R385): the tick count grows by 1, the grant of the tick that
begins is the one fixed a tick ago, or 0 in a RESYNC tick, and the grant fixed for the next tick is at most ACT_SLOPE away from it and at most 8 where
it grows; K is the ratio fixed a tick ago, and the level of THROT_N is taken. No run crosses a tick boundary (R42, R51): whatever the state before it,
after a boundary no thread is BLOCKED or RETIRED, a READY thread has issued no word, and no Scribe is halted for the tick. -/
def Obligations.BoundariesMoveTheTickAndEndRuns : Prop :=
  (
  ∀ (throtN : Bool) (s : State), s.boot.phase = .running → s.boot.stop = none →
    ∃ t, exec (.tickBoundary throtN) s = .next t ∧
      t.alm.tick = s.alm.tick + 1 ∧
      t.alm.grant = (if s.alm.resyncNext.isSome then 0 else s.alm.next) ∧
      (t.cfgF Reg.almLimit 11 8 ≠ 0 →
        t.alm.next ≤ t.alm.grant + t.cfgF Reg.almLimit 11 8 ∧ t.alm.grant ≤ t.alm.next + t.cfgF Reg.almLimit 11 8) ∧
      (t.alm.grant < t.alm.next → t.alm.next ≤ 8) ∧
      t.power.k = s.power.nextK ∧ t.power.extLow = !throtN ∧
      (t.boot.phase = .running ∨ t.boot.phase = .disabling)) ∧
  (
  ∀ (throtN : Bool) (s : State), s.coreOn = true →
    ∃ t, exec (.tickBoundary throtN) s = .next t ∧ t.halted = [] ∧
      ∀ n, (t.threadN n).state ≠ .blocked ∧ (t.threadN n).state ≠ .retired ∧
        ((t.threadN n).state = .ready → (t.threadN n).issued = 0 ∧ (t.threadN n).buf = []))

/-- TICK_SYNC outside RUNNING sets the phase of the tick, whose boundary falls at E + 2 + SYNC_DELAY (R55, R56). In RUNNING a pulse in step clears
what was counted, and one that is off counts in ALM_SYNC_ERR_CNT and sets SYNC_ERR; the phase does not move (R57). After SYNC_LIMIT bad pulses sync is
lost: SYNC_LOST is set and the notice goes out (R57, log 12). RESYNC, the load of the tick count, TICK_OUT and the droop detectors (R44, R55, R56,
R58, R378). A write of RESYNC sets the bit. With the pulse at most 12 REFCLK edges from the boundary that is a multiple of 1,024, the tick that holds
it is displaced by that much and gets a grant of 0; farther away it sets SYNC_ERR. ALM_TICK_SET is armed outside RUNNING and refused in it. TICK_OUT
pulses with TICK_OUT_EN in front of a boundary whose count is a multiple of 1,024. A droop stretch is counted while the detectors are active. -/
def Obligations.TickSyncResyncAndTickOut : Prop :=
  (
  (∀ (e : Nat) (s : State), bit s.boot.straps 8 = true → s.coreOn = true → s.boot.phase ≠ .running →
    ∃ t, exec (.tickSyncPulse e) s = .next t ∧ 25 + t.alm.displaced = e + 2 + s.cfgF Reg.almSync 4 0 ∧
      t.alm.tick = s.alm.tick ∧ t.alm.pulseSeen = true ∧ t.alm.syncLost = false ∧ t = { s with alm := t.alm }) ∧
  (∀ (e : Nat) (s : State), bit s.boot.straps 8 = true → s.boot.phase = .running →
    ∃ t, exec (.tickSyncPulse e) s = .next t ∧ t.alm.displaced = s.alm.displaced ∧ t.alm.tick = s.alm.tick ∧
      t.alm.pulseSeen = true ∧ SameRegsBut [Reg.almSyncErrCnt, Reg.almEvents] s t ∧
      t = { s with
        alm := t.alm
        regs := t.regs } ∧
      (s.inStep e = true → t.alm.syncBad = 0 ∧ t.alm.syncLost = false ∧ t.regs = s.regs) ∧
      (s.inStep e = false →
        Counts Reg.almSyncErrCnt 1 s t ∧ SetsBit Reg.almEvents 0 s t ∧
        t.alm.syncBad = s.alm.syncBad + (if s.alm.pulseSeen then 0 else 1))) ∧
  ∀ s : State, s.boot.phase = .running → bit s.boot.straps 8 = true → s.cfgF Reg.almSync 27 24 ≠ 0 →
    s.cfgF Reg.almSync 27 24 ≤ s.alm.syncBad → s.alm.syncLost = false → s.dcp.notices.length < 1024 →
    ∃ t n, exec .syncLost s = .next t ∧ t.alm = { s.alm with syncLost := true } ∧ SetsBit Reg.almEvents 1 s t ∧
      SameRegsBut [Reg.almEvents] s t ∧ t.dcp.notices = s.dcp.notices ++ [n] ∧ n.type = 0x0020 ∧ n.num = s.dcp.nextNum ∧
      t = { s with
        alm := t.alm
        regs := t.regs
        dcp := t.dcp
        free := t.free }) ∧
  (
  (∀ s : State, ∃ t, exec .resync s = .next t ∧ SetsBit Reg.almCtl 1 s t ∧ OnlyRegs [Reg.almCtl] s t) ∧
  (∀ (e : Nat) (s : State), s.boot.phase = .running → bit s.boot.straps 8 = true → bit (s.reg Reg.almCtl) 1 = true →
    ∃ t, exec (.resyncTick e) s = .next t ∧
      ∃ m : Int, m % 1024 = 0 ∧ (m - (s.now + 1)) * 2 ≤ 1024 ∧ -1024 < (m - (s.now + 1)) * 2 ∧
        let off : Int := e + 2 + s.cfgF Reg.almSync 4 0 - 25 * (m - (s.now + 1))
        if off.natAbs ≤ 12 then
          t.alm.resyncNext = some off ∧ t.alm.next = 0 ∧
          t = { s with alm := { s.alm with
            resyncNext := some off
            next := 0 } }
        else SetsBit Reg.almEvents 0 s t ∧ OnlyRegs [Reg.almEvents] s t) ∧
  (∀ (v : Word32) (s : State),
    ∃ t, exec (.almTickSetHiWrite v) s = .next t ∧
      (s.boot.phase = .running → t = s) ∧
      (s.boot.phase ≠ .running →
        (∃ n, t.alm.setArmed = some n ∧
          n.toNat = (v.toNat % 65536) * 2 ^ 32 + (s.reg Reg.almTickSetLo).toNat / 1024 * 1024) ∧
        (t.reg Reg.almTickSetHi).toNat = v.toNat % 65536 ∧ SameRegsBut [Reg.almTickSetHi] s t ∧
        t = { s with
          alm := { s.alm with setArmed := t.alm.setArmed }
          regs := t.regs
          wideHeld := t.wideHeld })) ∧
  (∀ s : State, s.coreOn = true → s.cfgB Reg.almCtl 0 = true →
    (s.now + (if s.cfgF Reg.almSync 12 8 = 0 then 0 else 1)) % 1024 = 0 →
    exec .tickOutPulse s = .next { s with out := s.out ++ [.pulse 16] }) ∧
  ∀ (n : Nat) (s : State), s.coreOn = true → s.droopIn 0 = true →
    exec (.droopStretch n) s = .next { s with power := { s.power with stretch := s.power.stretch + n } })

namespace Sys2Proof.Spec

open Sys2Proof.Machine

/-! ### The end of a run (chapter 3) -/

/-- A thread after its run has ended: it holds no run, and is BOUND if a packet is bound to it for the next tick, else
FREE (R60). -/
def Ended (th u : Thread) : Prop :=
  u.state = (if th.binding.isSome then .bound else .free) ∧ u.pkt = none ∧ u.buf = [] ∧ u.taken = [] ∧ u.issued = 0 ∧
  u.binding = th.binding ∧ u.bindEg = th.bindEg ∧ u.bindPc = th.bindPc ∧ u.bindW = th.bindW

/-- The run of thread n has been aborted: its packet is dropped and counted once under a reason at its slice, and the
buffers it had reserved are back in the cache of its quadrant (R77, R82, R360). -/
def AbortedRun (n reason : Nat) (s t : State) : Prop :=
  Ended (s.threadN n) (t.threadN n) ∧ (∀ k, k ≠ n → t.threadN k = s.threadN k) ∧
  (∀ j, 0x24000 ≤ j → j < 0x25000 → ctr t j = ctr s j +
    if (s.threadN n).pkt.isSome = true ∧ j = 0x24000 + 256 * (n / 2048) + reason then 1 else 0) ∧
  (∀ b, b ∈ (s.threadN n).taken → b.num ∈ (t.pool b.pool).cache (n / 4096)) ∧
  SameMem s t ∧
  t = { s with
    threads := t.threads
    regs := t.regs
    pools := t.pools
    freeChk := t.freeChk
    tm := { s.tm with shared := t.tm.shared }
    ctrs := t.ctrs
    dcp := t.dcp
    free := t.free }

/-- Every packet that a run holds, and every original that copies share, is in cells of the ODB (R190, R192). -/
def InCells (s : State) : Prop :=
  (∀ n p, (s.threadN n).pkt = some p → ∀ b ∈ p.bufs, b.pool < 16 ∧ s.poolKind b.pool < 2) ∧
  (∀ x ∈ s.tm.shared, ∀ b ∈ x.2.bufs, b.pool < 16 ∧ s.poolKind b.pool < 2)

/-- A copy of a word differs from what was loaded by bits that leave some parity wrong: an odd number of them in one of its words of
32 bits and that word's parity bit (R97). -/
abbrev Fails (key : Nat) (e : BitVec 396) : Prop :=
  ∃ g < (if key < 16384 then 2 else 12),
    ((List.range 32).countP (fun i => bit e (32 * g + i)) + if bit e (32 * (if key < 16384 then 2 else 12) + g) then 1 else 0) % 2 = 1

/-- The upsets that the two copies of a word hold. -/
def upsetOf (s : State) (k key : Nat) (shadow : Bool) : BitVec 396 :=
  SMap.find 0 (if shadow then (s.cluster k).shadErr else (s.cluster k).mainErr) key

end Sys2Proof.Spec

/-- MACHINE_CHECK (R97): bits upset in the copies of a word that leave every parity of the word about to issue and of its nanoword right are not
found, and nothing else happens. A machine check (R97 to R99, R101): of a word beyond its budget, or of one that fails its parity. It halts its Scribe
for the tick and ends every run of it that has not retired; runs that have retired, and every other Scribe, keep theirs. SCR_MC_LAST names source,
thread and physical Scribe, SCR_MC_CNT counts it and MC is set. The word is rewritten from its shadow copy in the next tick; where that fails too, the
cluster is FAILED. A second check on the same physical Scribe within 2^20 ticks of the first has it retired at the boundary. The scrubber (R101,
R102). It reads the word at its position, and goes on to the next; a pass begins 65,536 ticks after the one before it. A word whose main copy fails is
rewritten from the shadow copy and counted; one whose copies both fail makes its cluster FAILED, which is counted and recorded; any other is left. No
run is touched. -/
def Obligations.MachineChecksAndTheScrubber : Prop :=
  (
  ∀ (t : Tid) (src : McSource) (main shadow : BitVec 396) (s : State), MayFetch s t → src ≠ .budget → (s.thread t).pc < 16384 →
    let k := t.cluster.val
    let nano := 16384 + s.nanoIndex k (s.thread t).pc
    let key := if src = .program then (s.thread t).pc else nano
    (∀ x ∈ [(s.thread t).pc, nano], ¬Fails x (upsetOf s k x false ^^^ if x = key then main else 0)) →
    ∃ s', exec (.machineCheck t src ⟨main, shadow⟩) s = .next s' ∧
      (∀ x, upsetOf s' k x false = upsetOf s k x false ^^^ if x = key then main else 0) ∧
      (∀ x, upsetOf s' k x true = upsetOf s k x true ^^^ if x = key then shadow else 0) ∧
      s'.cluster k = { s.cluster k with
        mainErr := (s'.cluster k).mainErr
        shadErr := (s'.cluster k).shadErr } ∧
      (∀ i, i ≠ k → s'.cluster i = s.cluster i) ∧ s' = { s with clusters := s'.clusters }) ∧
  (
  ∀ (t : Tid) (src : McSource) (main shadow : BitVec 396) (s : State), MayFetch s t →
    let k := t.cluster.val
    let pc := (s.thread t).pc
    let key := if src = .program then pc else 16384 + s.nanoIndex k pc
    let phys := (s.cluster k).physOf t.scribe.val
    (src = .budget → (s.thread t).wcet ≤ (s.thread t).issued) →
    (src ≠ .budget → pc < 16384 ∧ Fails key (upsetOf s k key false ^^^ main) ∧
      (src = .codex → ¬Fails pc (upsetOf s k pc false))) →
    phys < 128 → s.core.waitHand = [] → InCells s →
    ∃ s', exec (.machineCheck t src ⟨main, shadow⟩) s = .next s' ∧
      let dead := src ≠ .budget ∧ Fails key (upsetOf s k key true ^^^ shadow)
      let first := SMap.find 0 (s.cluster k).mcFirst phys
      s'.halted = s.halted ++ [scribeIdx k t.scribe.val] ∧
      (∀ n, n / 8 = scribeIdx k t.scribe.val →
        ((s.threadN n).state = .ready ∨ (s.threadN n).state = .blocked) → Ended (s.threadN n) (s'.threadN n)) ∧
      (∀ n, ¬(n / 8 = scribeIdx k t.scribe.val ∧ ((s.threadN n).state = .ready ∨ (s.threadN n).state = .blocked)) →
        s'.threadN n = s.threadN n) ∧
      bits (s'.reg (Reg.scrMcLast (k / 4) (k % 4))) 31 30 =
        (if dead then 3 else match src with | .program => 0 | .codex => 1 | .budget => 2) ∧
      bits (s'.reg (Reg.scrMcLast (k / 4) (k % 4))) 29 16 = (if src = .codex then s.nanoIndex k pc else pc % 16384) ∧
      bits (s'.reg (Reg.scrMcLast (k / 4) (k % 4))) 10 8 = t.thread.val ∧
      bits (s'.reg (Reg.scrMcLast (k / 4) (k % 4))) 7 0 = phys ∧
      Counts (Reg.scrMcCnt (k / 4) (k % 4)) 1 s s' ∧ bit (s'.reg (Reg.scrEvents (k / 4))) (4 * (k % 4)) = true ∧
      (dead → (s'.cluster k).state = .failed) ∧
      (¬dead → (s'.cluster k).state = (s.cluster k).state ∧
        (s'.cluster k).rewrite = (s.cluster k).rewrite ++ if src = .budget then [] else [key]) ∧
      (if first ≠ 0 ∧ s.now < first - 1 + 2 ^ 20 then s'.spareIn = s.spareIn ++ [(k, t.scribe.val)]
        else s'.spareIn = s.spareIn ∧ SMap.find 0 (s'.cluster k).mcFirst phys = s.now + 1) ∧
      (∀ i, i ≠ k → s'.cluster i = s.cluster i) ∧ SameMem s s') ∧
  (
  ∀ (cluster : Fin 32) (store : Store) (addr : Nat) (main shadow : BitVec 396) (s : State), s.coreOn = true →
    s.cfgB (Reg.psScrubCtl (cluster.val / 4)) 0 = true →
    let k := cluster.val
    let i := match store with | .program => addr | .codex => 16384 + addr
    let c := s.cluster k
    let e := upsetOf s k i false ^^^ main
    let d := upsetOf s k i true ^^^ shadow
    (c.scrubAt = 0 → c.scrubTick ≠ 0 → s.now + 1 < c.scrubTick + 65536 → exec (.scrubVisit cluster store addr main shadow) s = .next s) ∧
    (c.scrubNext s.now = some i →
      ∃ t, exec (.scrubVisit cluster store addr main shadow) s = .next t ∧
        (t.cluster k).scrubAt = (if i + 1 = 20480 ∨ (i + 1 = 16384 ∧ c.codex.isNone) then 0 else i + 1) ∧
        (t.cluster k).scrubTick = (if c.scrubAt = 0 then s.now + 1 else c.scrubTick) ∧
        (∀ j, j ≠ k → t.cluster j = s.cluster j) ∧ upsetOf t k i true = d ∧
        (∀ x, x ≠ i → upsetOf t k x false = upsetOf s k x false ∧ upsetOf t k x true = upsetOf s k x true) ∧
        (¬Fails i e → upsetOf t k i false = e ∧ t = { s with clusters := t.clusters }) ∧
        (Fails i e → ¬Fails i d → upsetOf t k i false = d ∧ Counts (Reg.psScrubCnt (k / 4)) 1 s t ∧
          SameRegsBut [Reg.psScrubCnt (k / 4)] s t ∧
          t = { s with
            regs := t.regs
            clusters := t.clusters }) ∧
        (Fails i e → Fails i d → (t.cluster k).state = .failed ∧
          Counts (Reg.psShadowErr (k / 4)) 1 s t ∧ bit (t.reg (Reg.scrEvents (k / 4))) (4 * (k % 4) + 3) = true ∧
          (c.state ≠ .failed → ∃ v, t.vigil.log.getLast? = some v ∧ v.event = 0x0003 ∧ v.object.toNat = k) ∧
          t = { s with
            regs := t.regs
            clusters := t.clusters
            vigil := t.vigil
            dcp := t.dcp
            free := t.free })))

/-- ABORT and the end of the tick end a run (R51, R81, R82, R127). With no packet waiting for an earlier one of its stream, the packet is dropped with
PROGRAM_ABORT, with HOST_STOP where a host stop of the cluster is due, else with TICK_OVERRUN; the commit buffer is discarded, the reservations go
back, and nothing else of the machine moves but the buffers and counts that a drop touches; an overrun sets TICK_OVERRUN in ALM_EVENTS. The run that
retired first commits first (R73, R74, R129): its thread is released, and no other thread changes. A run that counted and then dropped its packet has
every count applied, in whatever order the words stood, and its packet is counted once under PROGRAM_DROP. -/
def Obligations.RunsCommitOrAreAborted : Prop :=
  (
  (∀ (t : Tid) (p : BitVec 4) (w : DWord) (s : State), Acts (.abort t p) t w s → MayIssue s t → s.core.waitHand = [] → InCells s →
    ∃ s', exec (.abort t p) s = .next s' ∧ AbortedRun (tidIdx t) 0x33 (s.noteIssue t) s' ∧ NotedIssue s t s') ∧
  ∀ (t : Tid) (s : State), ((s.thread t).state = .ready ∨ (s.thread t).state = .blocked) → s.core.waitHand = [] → InCells s →
    ∃ s', exec (.tickOverrun t) s = .next s' ∧
      if (s.cluster t.cluster.val).stopNext then AbortedRun (tidIdx t) 0x36 s s'
      else AbortedRun (tidIdx t) 0x34 s s' ∧ bit (s'.reg Reg.almEvents) 2 = true) ∧
  (
  (∀ (t : Tid) (s : State), (s.thread t).state = .retired → s.retiredOrder.head? = some (tidIdx t) →
    ∃ s', exec (.commitApply t) s = .next s' ∧ Ended (s.thread t) (s'.thread t) ∧
      ∀ k, k ≠ tidIdx t → s'.threadN k = s.threadN k) ∧
  ∀ (t : Tid) (es : List (Nat × BitVec 64)) (p : Pkt) (s : State), (s.thread t).state = .retired →
    s.retiredOrder.head? = some (tidIdx t) → s.core.waitHand = [] →
    (s.thread t).buf = es.map (fun e => CEntry.cnt e.1 e.2) ++ [.fate .drop] → (∀ e ∈ es, e.1 < 0x20000) →
    (s.thread t).looks = [] → (s.thread t).pkt = some p → p.bad = none → InCells s →
    ∃ s', exec (.commitApply t) s = .next s' ∧
      (∀ j, j < 0x20000 → ctr s' j = ctr s j + ((es.filter (fun e => e.1 == j)).map (fun e => e.2)).sum) ∧
      (∀ j, 0x24000 ≤ j → j < 0x25000 → ctr s' j = ctr s j + if j = 0x24000 + 256 * (tidIdx t / 2048) + 0x32 then 1 else 0) ∧
      SameMem s s' ∧
      s' = { s with
        threads := s'.threads
        ports := s'.ports
        regs := s'.regs
        pools := s'.pools
        freeChk := s'.freeChk
        tm := { s.tm with shared := s'.tm.shared }
        ctrs := s'.ctrs
        dcp := s'.dcp
        free := s'.free })

namespace Sys2Proof.Spec

open Sys2Proof.Machine

/-! ### Receive, admission and placement (chapter 5) -/

/-- The cache of a quadrant holds n buffers of a present CELL pool (R192, R196). -/
def HasCells (s : State) (pool quad n : Nat) : Prop :=
  s.poolCount pool ≠ 0 ∧ s.poolKind pool = 0 ∧ n ≤ ((s.pool pool).cache quad).length

/-- The state word of a buffer can be written: in an ODB pool always, in a page pool where its stripe can be reached (R201, R209). -/
abbrev WordUp (s : State) (pool num : Nat) : Prop :=
  s.poolKind pool < 2 ∨ (s.inPool pool num = true ∧ s.stacksOk (s.wordAddr pool num) 1 = true)

/-- The rings, bursts and unissued buffers of a pool are as before. -/
def SameRing (p : Nat) (s t : State) : Prop :=
  (t.pool p).head = (s.pool p).head ∧ (t.pool p).count = (s.pool p).count ∧ (t.pool p).next = (s.pool p).next ∧
  (t.pool p).bursts = (s.pool p).bursts

/-- The buffers bs are the n at the head of that cache, and have been taken from it for an owner class (R197, R201). -/
def TookCells (s t : State) (pool quad n cls : Nat) (bs : List Buf) : Prop :=
  SameRing pool s t ∧ (∀ m, (∀ b ∈ bs, b.num ≠ m) → t.bufWord pool m = s.bufWord pool m) ∧
  bs = (((s.pool pool).cache quad).take n).map (fun b => ⟨pool, b⟩) ∧
  (t.pool pool).cache quad = ((s.pool pool).cache quad).drop n ∧
  (∀ q, q ≠ quad → (t.pool pool).cache q = (s.pool pool).cache q) ∧ (∀ i, i ≠ pool → t.pool i = s.pool i) ∧
  (s.poolRa pool = false → ∀ b ∈ bs, WordUp s pool b.num → t.bufWord pool b.num = BitVec.ofNat 8 (16 + cls))

/-- A network port receives from its line (R256, R265), takes no frame already, and decrypts nothing. -/
structure Receives (s : State) (port : Nat) : Prop where
  named : s.portExists port = true
  up    : (s.port port).state = .up
  line  : s.portLoop port ≠ 1 ∧ s.portLoop port ≠ 3
  free  : s.rx.any (fun x => x.1 == port) = false
  plain : s.cipRx port 31 = false
  runs  : s.boot.phase = .running

/-- The pool of a port's received frames. -/
def rxPool (s : State) (port : Nat) : Nat := s.cfgF (Reg.accPortCfg (port / 64) (port % 64)) 27 24

/-- The error of R256 that a frame shows, in the order of their tests: code error, runt, too long, bad FCS. -/
def rxError (s : State) (port len : Nat) (err : RxErr) : Option Nat :=
  match err with
  | .code => some 0x04
  | .fcs => if len < 64 then some 0x02 else if s.maxFrame port < len then some 0x03 else some 0x01
  | .good => if len < 64 then some 0x02 else if s.maxFrame port < len then some 0x03 else none

/-- The three FEC counters of a port. -/
def fecRegs (port : Nat) : List Nat :=
  [Reg.octPortCwCorr (port / 8) (port % 8), Reg.octPortCwUncorr (port / 8) (port % 8), Reg.octPortSymCorr (port / 8) (port % 8)]

/-- The codewords that ended with a frame have been counted. -/
def CountsFec (port : Nat) (e : RxEnd) (s t : State) : Prop :=
  Counts (Reg.octPortCwCorr (port / 8) (port % 8)) e.corrected s t ∧
  Counts (Reg.octPortCwUncorr (port / 8) (port % 8)) e.uncorrectable s t ∧
  Counts (Reg.octPortSymCorr (port / 8) (port % 8)) e.symbols s t

/-- The call slip of a packet as Accession fills it (Table 5.1). -/
structure Stamped (s : State) (p : Pkt) (len port cls flags pool : Nat) (dt : Word64) : Prop where
  length : slipGet p.slip 0x00 2 = len
  inPort : slipGet p.slip 0x02 2 = port
  class' : slipByte p.slip 0x04 = BitVec.ofNat 8 cls
  flags' : slipByte p.slip 0x05 = BitVec.ofNat 8 flags
  recircs : slipByte p.slip 0x06 = 0
  ns     : slipGet p.slip 0x08 4 = (nsOf (s.oAt dt)).toNat
  tick   : slipGet p.slip 0x0C 4 = s.now % 2 ^ 32
  pool'  : slipByte p.slip 0x3F = BitVec.ofNat 8 pool

/-- The admission FIFO of a slice took a packet at its end, and nothing else of the slices changed but the XOFF state of
the FIFO and its highest and lowest fill (R142, R143, R361). -/
def Admitted (s t : State) (sl : Nat) (p : Pkt) : Prop :=
  t.slice sl = { s.slice sl with
    fifo := (s.slice sl).fifo ++ [p]
    xoff := (t.slice sl).xoff
    hi := (t.slice sl).hi
    lo := (t.slice sl).lo } ∧ ∀ i, i ≠ sl → t.slice i = s.slice i

/-- Where cells do not overlap, they hold the bytes bs, 256 to each, and no other byte of memory has changed (R189, R190). -/
def WroteCells (s t : State) (l : List Buf) (bs : List Byte) : Prop :=
  (l.Pairwise (fun x y => x.num + 4 ≤ y.num ∨ y.num + 4 ≤ x.num) →
    ∀ i < bs.length, memRead t.mem (0xB00000000000 + 64 * (l.getD (i / 256) ⟨0, 0⟩).num + i % 256) = bs.getD i 0) ∧
  ∀ a, (∀ b ∈ l, a < 0xB00000000000 + 64 * b.num ∨ 0xB00000000000 + 64 * b.num + 256 ≤ a) → memRead t.mem a = memRead s.mem a

/-- What a parse gives the class of a frame (R139). -/
def ClassOf (s : State) (port : Nat) (data : List Byte) (cls : Nat) : Prop :=
  (s.parse (port / 64) (bits (s.cfg (Reg.accPortCfg (port / 64) (port % 64))) 7 0) data).cls = some cls

/-- A received packet of a port that mirrors nothing finds room in the FIFO. -/
def RoomFor (s : State) (port : Nat) (data : List Byte) : Prop :=
  fifoSum (s.slice (port / 64)).fifo + (128 + (min 256 data.length + 63) / 64 * 64) ≤ 65536 ∧
  bit (s.cfg (Reg.mirPort port)) 7 = false

end Sys2Proof.Spec

/-- A frame that is held until its end (R134, R136, R142, R256). A good one that is no pause frame, with a class, cells and room, becomes one packet
at the end of the admission FIFO of its slice, stamped, in cells of the port's pool, and counts as received with its bytes; its cells hold its bytes,
with its FCS. The codewords that ended with it are counted. One in error (an uncorrectable codeword is one) is counted as such, and once under the
reason of its first error; it leaves no packet. A frame taken early (R134, R135, R257). With its first 256 bytes a packet is admitted that has not
ended: it carries RX_FLAGS[3] and FRAME_LEN 16,383; of a PAUSE or PFC frame no packet is made. At a good end the rest of the frame joins the packet
where it waits in the FIFO, in further cells of the pool, and the frame counts as received; at a bad end no packet of the frame is left in the FIFO,
and the frame counts as received in error. -/
def Obligations.ReceivedFramesAreTaken : Prop :=
  (
  (∀ (port : Nat) (data : List Byte) (corr sym : Nat) (dt back : Word64) (cls : Nat) (s : State), Receives s port →
    (s.cutPort port = false ∨ data.length + 4 < 260) → rxError s port (data.length + 4) .good = none → isPause data = false →
    HasCells s (rxPool s port) (port / 128) ((data.length + 4 + 255) / 256) → ClassOf s port data cls → RoomFor s port data →
    ∃ t p, exec (.frameReceive port data ⟨.good, corr, 0, sym⟩ dt back) s = .next t ∧ Admitted s t (port / 64) p ∧
      p.data = data ∧ p.ended = true ∧ p.bad = none ∧ p.stream = .port port ∧ p.slice = port / 64 ∧
      Stamped s p (data.length + 4) port cls 0 (rxPool s port) dt ∧
      TookCells s t (rxPool s port) (port / 128) ((data.length + 4 + 255) / 256) 0 p.bufs ∧
      (∀ c, c < 32 → ctr t (0x20000 + 32 * port + c) = ctr s (0x20000 + 32 * port + c) +
        (if c = 0 then 1 else if c = 1 then BitVec.ofNat 64 (data.length + 4) else 0)) ∧
      CountsFec port ⟨.good, corr, 0, sym⟩ s t ∧
      SameRegsBut ([Reg.circPoolLow (rxPool s port), Reg.accFifoPeak (port / 64), Reg.accEvents (port / 64)] ++ fecRegs port) s t ∧
      WroteCells s t p.bufs (data ++ leBytes 4 (crc32 polyEth data).toNat) ∧
      t = { s with
        mem := t.mem
        slices := t.slices
        pools := t.pools
        regs := t.regs
        ctrs := t.ctrs
        nextId := t.nextId }) ∧
  ∀ (port : Nat) (data : List Byte) (e : RxEnd) (dt back : Word64) (code : Nat) (s : State), Receives s port →
    (s.cutPort port = false ∨ data.length + 4 < 260) → rxError s port (data.length + 4) (if e.uncorrectable = 0 then e.mac else .code) = some code →
    HasCells s (rxPool s port) (port / 128) ((min (data.length + 4) (s.maxFrame port + 1) + 255) / 256) →
    ∃ t, exec (.frameReceive port data e dt back) s = .next t ∧ CountsFec port e s t ∧
      (∀ c, c < 32 → ctr t (0x20000 + 32 * port + c) = ctr s (0x20000 + 32 * port + c) + (if c = 2 then 1 else 0)) ∧
      (∀ j, 0x24000 ≤ j → j < 0x25000 → ctr t j = ctr s j + if j = 0x24000 + 256 * (port / 64) + code then 1 else 0) ∧
      t = { s with
        pools := t.pools
        freeChk := t.freeChk
        regs := t.regs
        ctrs := t.ctrs
        dcp := t.dcp
        free := t.free }) ∧
  (
  (∀ (port : Nat) (data : List Byte) (dt back : Word64) (cls : Nat) (s : State), Receives s port → s.cutPort port = true →
    data.length = 256 → isPause data = false → HasCells s (rxPool s port) (port / 128) 1 → ClassOf s port data cls →
    RoomFor s port data →
    ∃ t p, exec (.cutThroughTake port data dt back) s = .next t ∧ Admitted s t (port / 64) p ∧ p.data = data ∧
      p.ended = false ∧ p.bad = none ∧ Stamped s p 16383 port cls 8 (rxPool s port) dt ∧
      TookCells s t (rxPool s port) (port / 128) 1 0 p.bufs ∧ t.rx = (s.rx.drop port).insert port ⟨p.id, 256, none, none⟩ ∧
      WroteCells s t p.bufs data ∧
      t = { s with
        mem := t.mem
        rx := t.rx
        slices := t.slices
        pools := t.pools
        regs := t.regs
        ctrs := t.ctrs
        nextId := t.nextId }) ∧
  (∀ (port : Nat) (data : List Byte) (dt back : Word64) (s : State), Receives s port → s.cutPort port = true →
    data.length = 256 → isPause data = true →
    ∃ t id, exec (.cutThroughTake port data dt back) s = .next t ∧ t.rx = (s.rx.drop port).insert port ⟨id, 256, none, some data⟩ ∧
      t = { s with
        rx := t.rx
        nextId := t.nextId }) ∧
  ∀ (port id : Nat) (rest : List Byte) (e : RxEnd) (s : State), port < 512 →
    let err := if e.uncorrectable = 0 then e.mac else .code
    s.rx.find? (fun x => x.1 == port) = some (port, ⟨id, 256, none, none⟩) →
    (rxError s port (256 + rest.length + 4) err = none → s.cipher.icv.find? (fun x => x.1 == id) = none →
      s.core.transit.find? (fun t => t.more && decide (t.pkt.id = id)) = none → s.core.waitHand = [] →
      (∃ p ∈ (s.slice (port / 64)).fifo, p.isOf id = true ∧ p.ended = false) →
      HasCells s (rxPool s port) (port / 128) ((rest.length + 4 + 255) / 256) →
      ∃ t bs, exec (.frameEndCut port rest e) s = .next t ∧ CountsFec port e s t ∧ t.rx = s.rx.drop port ∧
        TookCells s t (rxPool s port) (port / 128) ((rest.length + 4 + 255) / 256) 0 bs ∧
        (t.slice (port / 64)).fifo = (s.slice (port / 64)).fifo.map (fun p =>
          if p.isOf id = true then
            { (if p.ended then p else { p with
              data := p.data ++ rest
              ended := true
              bufs := p.bufs ++ (if p.isCopy then [] else bs) }) with byp := [] }
          else p) ∧
        ctr t (0x20000 + 32 * port) = ctr s (0x20000 + 32 * port) + 1 ∧
        ctr t (0x20000 + 32 * port + 1) = ctr s (0x20000 + 32 * port + 1) + BitVec.ofNat 64 (256 + rest.length + 4)) ∧
    (rxError s port (256 + rest.length + 4) err ≠ none →
      ∃ t, exec (.frameEndCut port rest e) s = .next t ∧ CountsFec port e s t ∧ t.rx = s.rx.drop port ∧
        (∀ p ∈ (t.slice (port / 64)).fifo, p.isOf id = false) ∧
        ctr t (0x20000 + 32 * port + 2) = ctr s (0x20000 + 32 * port + 2) + 1))

namespace Sys2Proof.Spec

open Sys2Proof.Machine

/-- The runs bound to a Scribe for the next tick keep its grant and its cycles (R45, R46): at most G of them, and their declared
WCETs together at most U. -/
def KeepsBudget (s : State) (cluster scribe : Nat) : Prop :=
  (s.boundOf cluster scribe).length ≤ s.nextG cluster ∧
  ((s.boundOf cluster scribe).map (fun th => th.bindW)).sum ≤ s.nextU

/-- A packet has been bound to one thread that held no binding, of a Scribe of the slice, with the entry's start and WCET;
no other thread has changed (R60). -/
def BoundTo (s t : State) (sl : Nat) (p : Pkt) (e : Entry) (egress : Bool) : Prop :=
  ∃ n, n / 2048 = sl ∧ (s.threadN n).binding = none ∧
    t.threadN n = { s.threadN n with
      binding := some p
      bindEg := egress
      bindPc := e.start
      bindW := e.wcet
      state := if (s.threadN n).state = .free then .bound else (s.threadN n).state } ∧
    ∀ k, k ≠ n → t.threadN k = s.threadN k

end Sys2Proof.Spec

/-- A packet alone in the admission FIFO, whose class has an ingress entry in the slice's images, is bound to the Scribe that the search from the last
one used finds (R144, R145); a packet dequeued for egress is bound likewise (R47, R148). The packet has left its store, and the search begins after
that Scribe next time. Where no entry exists the packet is dropped with NO_ENTRY. Placement keeps every Scribe's budget (R45, R46): where the runs
bound for the next tick keep the grant and the cycles of a Scribe before Accession or the egress dispatcher of any slice binds more, they keep them
after it. -/
def Obligations.PacketsAreBoundWithinBudget : Prop :=
  (
  (∀ (slice : Fin 8) (p : Pkt) (m : Nat) (e : Entry) (s : State), s.boot.phase = .running →
    (s.slice slice.val).egress = [] → (s.slice slice.val).recq = [] → (s.slice slice.val).inj = [] → (s.slice slice.val).fifo = [p] →
    s.core.waitHand = [] → s.alm.next ≤ 8 →
    s.entryExists (bits (slipByte p.slip 4) 5 0) false = true →
    s.findScribe slice.val (s.slice slice.val).last (bits (slipByte p.slip 4) 5 0) false 0 0 = some (m, e) →
    ∃ t, exec (.accessionPlace slice) s = .next t ∧ BoundTo s t slice.val p e false ∧
      (t.slice slice.val).fifo = [] ∧ (t.slice slice.val).last = m ∧ (t.slice slice.val).accDone = true ∧ t.pools = s.pools ∧ t.ctrs = s.ctrs ∧ t.core = s.core) ∧
  (∀ (slice : Fin 8) (p : Pkt) (m : Nat) (e : Entry) (s : State), s.flowing = true → (s.slice slice.val).accDone = false →
    (s.slice slice.val).egress = [p] → p.bad = none → s.alm.next ≤ 8 →
    s.entryExists p.egEntry true = true → s.egressScribe slice.val p = some (m, e) →
    ∃ t, exec (.egressDispatch slice) s = .next t ∧ BoundTo s t slice.val p e true ∧
      t.slice slice.val = { s.slice slice.val with
        egress := []
        lastEg := m
        hi := (t.slice slice.val).hi
        lo := (t.slice slice.val).lo } ∧
      t = { s with
        threads := t.threads
        slices := t.slices }) ∧
  (∀ (slice : Fin 8) (s : State), s.flowing = true → (s.slice slice.val).accDone = true → exec (.egressDispatch slice) s = .next s) ∧
  ∀ (slice : Fin 8) (p : Pkt) (s : State), s.flowing = true → (s.slice slice.val).accDone = false →
    (s.slice slice.val).egress = [p] → p.bad = none →
    s.entryExists p.egEntry true = false →
    ∃ t, exec (.egressDispatch slice) s = .next t ∧ (t.slice slice.val).egress = [] ∧ t.threads = s.threads ∧
      ∀ j, 0x24000 ≤ j → j < 0x25000 →
        ctr t j = ctr s j + if j = 0x24000 + 256 * slice.val + 0x30 then 1 else 0) ∧
  (
  ∀ (slice : Fin 8) (s : State), s.flowing = true →
    (∃ t, exec (.accessionPlace slice) s = .next t ∧
      ∀ k i, k < 32 → i < 64 → KeepsBudget s k i → KeepsBudget t k i) ∧
    ∃ t, exec (.egressDispatch slice) s = .next t ∧
      ∀ k i, k < 32 → i < 64 → KeepsBudget s k i → KeepsBudget t k i)

/-- Pause (R262, R264, R239). A PFC frame on a PFC port pauses the priorities enabled in it and in RX_PRIO for its times, or ends their pause
where the time is 0; a PAUSE frame on a PAUSE port pauses or releases all; a frame of the other kind is counted and nothing else. It counts
as a received frame (its 64 bytes are log 103). A pause ends in the tick its time runs out in, not before. A port in UP sends, for the
priorities it holds its partner for, a frame with PAUSE_TIME, and a frame with a time of 0 for those it releases; a frame sent for cells
above XOFF sets PFC_XOFF. -/
def Obligations.PauseFramesHoldAndRelease : Prop :=
  (∀ (port : Nat) (pfc : Bool) (en : BitVec 8) (times : List (BitVec 16)) (s : State), s.portExists port = true →
    (s.port port).state = .up → s.portLoop port ≠ 1 → s.portLoop port ≠ 3 →
    let taken := fun c : Nat => if pfc then s.portFlow port = 2 ∧ bit en c = true ∧
        bit (s.cfg (Reg.octPortPfc (port / 8) (port % 8))) (8 + c) = true else s.portFlow port = 1
    let time := fun c : Nat => (times.getD (if pfc then c else 0) 0).toNat
    ∃ t, exec (.pauseFrameReceive port pfc en times) s = .next t ∧
      Counts (Reg.octPortPauseRx (port / 8) (port % 8)) 1 s t ∧
      SameRegsBut [Reg.octPortPauseRx (port / 8) (port % 8)] s t ∧
      (∀ j, ctr t j = ctr s j + if j = 0x20000 + 32 * port then 1 else if j = 0x20000 + 32 * port + 1 then 64 else 0) ∧
      (∀ c, c < 8 → (taken c → bit (t.port port).rxPaused c = decide (time c ≠ 0) ∧
          SMap.find 0 (t.port port).pauseEnd c = s.now + time c * 512 / (160 * max 1 (s.portRate port))) ∧
        (¬taken c → bit (t.port port).rxPaused c = bit (s.port port).rxPaused c ∧
          SMap.find 0 (t.port port).pauseEnd c = SMap.find 0 (s.port port).pauseEnd c)) ∧
      t.port port = { s.port port with
        rxPaused := (t.port port).rxPaused
        pauseEnd := (t.port port).pauseEnd } ∧ (∀ q, q ≠ port → t.port q = s.port q) ∧
      t = { s with
        regs := t.regs
        ctrs := t.ctrs
        ports := t.ports }) ∧
  (∀ (port : Nat) (prio : Fin 8) (s : State),
    (bit (s.port port).rxPaused prio.val = true → SMap.find 0 (s.port port).pauseEnd prio.val ≤ s.now →
      ∃ t, exec (.pauseExpire port prio) s = .next t ∧
        (∀ c, c < 8 → bit (t.port port).rxPaused c =
          (if s.portFlow port = 2 ∧ c ≠ prio.val then bit (s.port port).rxPaused c else false)) ∧
        t.port port = { s.port port with rxPaused := (t.port port).rxPaused } ∧ (∀ q, q ≠ port → t.port q = s.port q) ∧
        t = { s with ports := t.ports }) ∧
    (s.now < SMap.find 0 (s.port port).pauseEnd prio.val → exec (.pauseExpire port prio) s = .next s)) ∧
  ∀ (port : Nat) (s : State), s.portExists port = true → (s.port port).state = .up → s.portLoop port ≠ 2 →
    s.cfgF (Reg.octPortFrame (port / 8) (port % 8)) 15 0 ≠ 0 →
    ∃ t, exec (.pauseFrameSend port) s = .next t ∧
      (let want := s.notePfc.wantPause port
       let gone := (s.port port).sent &&& ~~~want
       let time := s.cfgF (Reg.octPortFrame (port / 8) (port % 8)) 15 0
       (t.port port).sent = want ∧
       t.out = s.out ++ (if gone = 0 then [] else [.pause port gone 0]) ++ (if want = 0 then [] else [.pause port want time]) ∧
       Counts (Reg.octPortPauseTx (port / 8) (port % 8)) ((if gone = 0 then 0 else 1) + (if want = 0 then 0 else 1)) s t ∧
       (want ≠ 0 → (s.slice (port / 64)).xoff = false → bit (t.reg (Reg.tmEvents (port / 64))) 2 = true)) ∧
      SameRegsBut [Reg.octPortPauseTx (port / 8) (port % 8), Reg.tmEvents (port / 64)] s t ∧
      t = { s with
        ports := t.ports
        regs := t.regs
        out := t.out }

namespace Sys2Proof.Spec

open Sys2Proof.Machine

/-! ### Queues, scheduling and transmit (chapters 5 and 8) -/

/-- A packet stands first among those that have reached the queues of a slice, its DEST names an existing port, and its queue is
enabled. -/
structure Arrives (s : State) (slice : Nat) (p : Pkt) (rest : List Pkt) : Prop where
  first  : (s.slice slice).arrived = p :: rest
  sound  : p.bad = none
  named  : s.portExists p.destPort = true
  enabled : s.queueEn p.destQueue = true

/-- The port of a packet's queue. -/
def outPort (s : State) (p : Pkt) : Nat := s.queuePort p.destQueue

/-- With n cells more, the depth of a queue would pass QMAX, or that of its port PORT_MAX; a limit of 0 is none (R234). -/
def OverLimit (s : State) (q port n : Nat) : Prop :=
  (bits (s.queueWord q 1) 19 0 ≠ 0 ∧ 16 * bits (s.queueWord q 1) 19 0 < (s.queue q).depth + n) ∨
  (s.cfgF (Reg.tmNode (port / 64) 0x78000 (port % 64) 1) 27 0 ≠ 0 ∧
    16 * s.cfgF (Reg.tmNode (port / 64) 0x78000 (port % 64) 1) 27 0 < s.portDepth port + n)

/-- The packet at the front has been dropped at its queue and counted once under a reason; no queue holds a packet more or
less. -/
def DroppedAtQueue (s t : State) (slice : Nat) (rest : List Pkt) (code : Nat) : Prop :=
  (t.slice slice).arrived = rest ∧ (∀ q, (t.queue q).pkts = (s.queue q).pkts) ∧
  ∀ j, 0x24000 ≤ j → j < 0x25000 → ctr t j = ctr s j + if j = 0x24000 + 256 * slice + code then 1 else 0

end Sys2Proof.Spec

/-- An arrival at a queue meets the tests of R234 in their order: a port out of service (PORT_DOWN; so is one that does not exist, and a
queue that is not enabled, log 38), a depth past its limit (TAIL_DROP,
which sets its event), WRED, and on a shelving queue a tail at its limit (SHELVE_BUSY, R213). One that passes all stands last in
its queue, with the depth it found in its call slip, and its cells are counted in the depth; the average has followed it
(R235). -/
def Obligations.ArrivalMeetsTheTestsInOrder : Prop :=
  (∀ (slice : Fin 8) (p : Pkt) (rest : List Pkt) (s : State), Arrives s slice.val p rest → s.inService (outPort s p) = false →
    ∃ t, exec (.enqueue slice) s = .next t ∧ DroppedAtQueue s t slice.val rest 0x56) ∧
  (∀ (slice : Fin 8) (p : Pkt) (rest : List Pkt) (s : State), (s.slice slice.val).arrived = p :: rest → p.bad = none →
    (s.portExists p.destPort = false ∨ s.queueEn p.destQueue = false) →
    ∃ t, exec (.enqueue slice) s = .next t ∧ DroppedAtQueue s t slice.val rest 0x56) ∧
  (∀ (slice : Fin 8) (p : Pkt) (rest : List Pkt) (s : State), Arrives s slice.val p rest → s.inService (outPort s p) = true →
    OverLimit s p.destQueue (outPort s p) p.cells →
    ∃ t, exec (.enqueue slice) s = .next t ∧ DroppedAtQueue s t slice.val rest 0x51 ∧
      bit (t.reg (Reg.tmEvents slice.val)) 0 = true) ∧
  (∀ (slice : Fin 8) (p : Pkt) (rest : List Pkt) (s : State), Arrives s slice.val p rest → s.inService (outPort s p) = true →
    ¬OverLimit s p.destQueue (outPort s p) p.cells → bit (s.queueWord p.destQueue 2) 27 = false →
    (s.queue p.destQueue).shelv = true → bit (s.shelveB p.destQueue) 31 = false →
    bits (s.shelveB p.destQueue) 11 0 ≤ (s.queue p.destQueue).tail →
    ∃ t, exec (.enqueue slice) s = .next t ∧ DroppedAtQueue s t slice.val rest 0x41) ∧
  ∀ (slice : Fin 8) (p : Pkt) (rest : List Pkt) (s : State), Arrives s slice.val p rest → s.inService (outPort s p) = true →
    ¬OverLimit s p.destQueue (outPort s p) p.cells → bit (s.queueWord p.destQueue 2) 27 = false →
    ((s.queue p.destQueue).shelv = false ∨
      (bit (s.shelveB p.destQueue) 31 = false ∧ (s.queue p.destQueue).tail < bits (s.shelveB p.destQueue) 11 0)) →
    ∃ t p', exec (.enqueue slice) s = .next t ∧ (t.slice slice.val).arrived = rest ∧
      (t.queue p.destQueue).pkts = (s.queue p.destQueue).pkts ++ [p'] ∧
      p' = { p with
        slip := p'.slip
        queue := some p.destQueue } ∧
      slipGet p'.slip 0x74 4 = (s.queue p.destQueue).depth % 2 ^ 32 ∧
      (∀ o, ¬(0x74 ≤ o ∧ o < 0x78) → slipByte p'.slip o = slipByte p.slip o) ∧
      (t.queue p.destQueue).depth = (s.queue p.destQueue).depth + p.cells ∧
      (t.queue p.destQueue).avg = (s.queue p.destQueue).avg + (((s.queue p.destQueue).depth : Rat) - (s.queue p.destQueue).avg) /
        ((2 ^ s.cfgF (Reg.coreWred (bits (s.queueWord p.destQueue 1) 27 20) 3) 3 0 : Nat) : Rat) ∧
      (∀ q, q ≠ p.destQueue → t.queue q = s.queue q) ∧
      t = { s with
        slices := t.slices
        tm := t.tm
        ports := t.ports }

/-- A port in UP and in service, with a queue that may be selected, gives up the first packet of such a queue (R47, R211, R232, R233, R238): one that
is not paused, whose packet lies wholly in the head, and whose egress run the dispatcher can place in this tick, before Accession. Every shaper of its
path gives FRAME_LEN + SHAPE_ADJ bytes from both buckets, the packet goes to the egress dispatcher, or straight to transmit where it takes no egress
run, and every other queue keeps its packets. A host port in UP with nothing on its wire sends the first packet of its highest class that holds one,
as its cells hold it (R237, R202). -/
def Obligations.PortsServeTheirQueues : Prop :=
  (
  ∀ (port : Nat) (dt : Word64) (s : State), port < 512 → s.flowing = true → (s.port port).state = .up →
    s.inService port = true → s.peakOk (port / 64) (portNode port) = true → (s.slice (port / 64)).egress = [] →
    (∀ q ∈ s.portQueues port, ∀ p ∈ (s.queue q).pkts, p.bad = none) →
    (∃ q ∈ s.portQueues port, s.queueReady q = true ∧
      ∃ p rest, (s.queue q).pkts = p :: rest ∧ (p.noRun = true ∨ ((s.slice (queueSlice q)).accDone = false ∧
        (s.slice (queueSlice q)).egress = [] ∧
        (s.entryExists p.egEntry true = false ∨ (s.egressScribe (queueSlice q) p).isSome = true)))) →
    ∃ t q p rest p', exec (.dequeue port dt) s = .next t ∧ s.queuePort q = port ∧ s.queuePaused q = false ∧
      (s.queue q).pkts = p :: rest ∧ p.cells ≤ (s.queue q).head ∧ (t.queue q).pkts = rest ∧
      (∀ i, i ≠ q → t.queue i = s.queue i) ∧
      p'.data = p.data ∧ p'.bufs = p.bufs ∧ slipGet p'.slip 0x00 2 = p.frameLen % 65536 ∧
      (t.slice (port / 64)).egress = (if p.noRun then [] else [p']) ∧
      (t.slice (port / 64)).done = (s.slice (port / 64)).done ++ (if p.noRun then [p'] else []) ∧
      (∀ o ∈ portNode port :: (s.queuePath q).take 3,
        (t.bucket (port / 64) o).c = (s.bucket (port / 64) o).c -
          6250 * ((p.frameLen : Int) + ((s.tmWord (port / 64) (portNode port) 0).extractLsb' 0 8).toInt) ∧
        (t.bucket (port / 64) o).p = (s.bucket (port / 64) o).p -
          6250 * ((p.frameLen : Int) + ((s.tmWord (port / 64) (portNode port) 0).extractLsb' 0 8).toInt)) ∧
      t = { s with
        tm := t.tm
        slices := t.slices
        nextId := t.nextId }) ∧
  (
  ∀ (h : Fin 2) (dt : Word64) (c : Nat) (p : Pkt) (rest : List Pkt) (s : State), s.flowing = true → (s.hp h.val).state = .up →
    (s.port (512 + h.val)).wire = [] → c < 8 → s.hostQueue h.val c = p :: rest → (∀ k, c < k → k < 8 → s.hostQueue h.val k = []) →
    p.bad = none →
    ∃ t, exec (.dequeue (512 + h.val) dt) s = .next t ∧ (t.port (512 + h.val)).wire = [s.loadPkt 0 p] ∧ t.hostQueue h.val c = rest ∧
      (∀ g k, g < 2 → k < 8 → ¬(g = h.val ∧ k = c) → t.hostQueue g k = s.hostQueue g k) ∧
      (∀ q, q ≠ 512 + h.val → t.port q = s.port q) ∧
      t = { s with
        tm := { s.tm with hostQ := t.tm.hostQ }
        ports := t.ports })

namespace Sys2Proof.Spec

open Sys2Proof.Machine

/-- TX_ADJ of a port, added to O at the start of a frame, to 1/256 ns (R326). -/
def sentStamp (s : State) (port : Nat) (dt : Word64) : BitVec 64 :=
  (s.oAt dt + BitVec.ofInt 64 (((s.cfg (Reg.timePort port 1)).extractLsb' 16 16).toInt * 2 ^ 24)) &&& ~~~(0xFFFFFF : BitVec 64)

/-- A frame whose transmission can begin and that takes neither cipher pass nor mirror copy; its port is UP. -/
structure Departs (s : State) (slice : Nat) (p : Pkt) : Prop where
  next   : (s.slice slice).done.find? (fun x => s.mayTransmit slice x && (s.port x.destPort).state != .hold) = some p
  up     : (s.port p.destPort).state = .up
  notFar : s.portLoop p.destPort ≠ 2
  sound  : p.bad = none
  whole  : p.ended = true
  noSa   : p.saIndex = none
  noTx   : s.cfgB (Reg.cipPortCfg slice (p.destPort % 64)) 28 = false
  noCopy : bit (s.cfg (Reg.mirPort p.destPort)) 15 = false

end Sys2Proof.Spec

/-- Transmission (R148, R202, R326, R328, R329). The frame, as its cells hold it, goes to the wire of its port, padded with zero bytes to 60 before
its FCS. On a port with TC_EN a received frame with a PTP event header of no UDP packet carries, in its correctionField, what stood there plus the
residence time, less what the output timescale jumped by meanwhile, in units of 2^-16 ns; no other byte of it changes. A frame that has left (R331,
R362, Table 14.2): it stands in the record of what was sent, its port counts it, with its bytes, under its class, and as sent with an inverted FCS
where it was; its latency is counted in the histogram of port and class, and its departure in the timestamp queue, or as lost where that is full. In
near-end PMA and PCS loopback it goes to the port's own receiver and not to the line (R265). A host port counts it in HP_TX. The flush of a port that
has left service (R236). Every queue of the port gives up packets from its front, no other queue gives any, and the flush of a tick ends with the
port's queues empty or with 256 packets of its slice flushed in this tick. It is complete when every queue of the port is empty, and the next boundary
returns the port to service. -/
def Obligations.FramesLeaveAndQueuesAreFlushed : Prop :=
  (
  (∀ (slice : Fin 8) (dt : Word64) (p : Pkt) (s : State), Departs s slice.val p → p.rxStamp = none → p.oneStep = false →
    ∃ t, exec (.transmit slice dt) s = .next t ∧
      (t.port p.destPort).wire = (s.port p.destPort).wire ++ [{ p with
        data := (s.loadPkt 0 p).data ++ List.replicate (60 - p.data.length) 0
        txO := s.oAt dt
        txTick := s.now
        txAt := sentStamp s p.destPort dt }] ∧
      (∀ q, q ≠ p.destPort → t.port q = s.port q) ∧
      t.slice slice.val = { s.slice slice.val with
        done := (s.slice slice.val).done.erase p
        hi := (t.slice slice.val).hi
        lo := (t.slice slice.val).lo } ∧
      t = { s with
        ports := t.ports
        slices := t.slices }) ∧
  ∀ (slice : Fin 8) (dt : Word64) (p : Pkt) (r j : BitVec 64) (d h : Nat) (s : State), Departs s slice.val p →
    let bs := (s.loadPkt 0 p).data
    p.rxStamp = some (r, j, d) → p.oneStep = false → s.cfgB (Reg.timePort p.destPort 0) 31 = true →
    p.hdrOff (s.cfgF Reg.timeCfg 12 8) = h → p.hdrOff (s.cfgF Reg.timeCfg 4 0) = 0xFF → h ≠ 0xFF →
    60 ≤ bs.length → h + 16 ≤ bs.length → (bs.getD (h + 1) 0).toNat % 16 = 2 → (bs.getD h 0).toNat % 16 ≤ 3 →
    ∃ t p', exec (.transmit slice dt) s = .next t ∧ (t.port p.destPort).wire = (s.port p.destPort).wire ++ [p'] ∧
      p'.data.length = p.data.length ∧
      BitVec.ofNat 64 (beNat (slice0 p'.data (h + 8) 8)) = BitVec.ofNat 64 (beNat (slice0 bs (h + 8) 8)) +
         BitVec.ofInt 64 (Int.tdiv ((sentStamp s p.destPort dt - r) - (s.time.j - j)).toInt 65536) ∧
      ∀ i, ¬(h + 8 ≤ i ∧ i < h + 16) → p'.data.getD i 0 = bs.getD i 0) ∧
  (
  (∀ (port : Nat) (p : Pkt) (rest : List Pkt) (s : State), port < 512 → (s.port port).wire = p :: rest → p.ended = true →
    s.portLoop port ≠ 1 → s.portLoop port ≠ 3 →
    ∃ t, exec (.transmitComplete port) s = .next t ∧ t.port port = { s.port port with wire := rest } ∧
      (∀ q, q ≠ port → t.port q = s.port q) ∧ t.out = s.out ++ [.frame port p.data p.stomp] ∧
      (∀ c, c < 32 → ctr t (0x20000 + 32 * port + c) = ctr s (0x20000 + 32 * port + c) +
        BitVec.ofNat 64 ((if c = 3 then 1 else 0) + (if c = 4 then p.data.length + 4 else 0) +
          (if c = 8 + p.tc then 1 else 0) + (if c = 5 ∧ p.stomp = true then 1 else 0))) ∧
      (∀ i, SMap.find 0 t.ctrs.hist i = SMap.find 0 s.ctrs.hist i +
        if p.admitted = true ∧ i = 256 * port + 32 * p.tc + latencyBin p.latency then 1 else 0) ∧
      (p.tsId = none → t.time = s.time) ∧
      (∀ id, p.tsId = some id → s.time.tsq.length < 64 →
        ∃ e, t.time.tsq = s.time.tsq ++ [e] ∧ e.id = id ∧ e.port = port ∧ Counts Reg.tsqLost 0 s t) ∧
      (∀ id, p.tsId = some id → 64 ≤ s.time.tsq.length →
        t.time = s.time ∧ Counts Reg.tsqLost 1 s t ∧ bit (t.reg Reg.tsqStatus) 31 = true)) ∧
  (∀ (port : Nat) (p : Pkt) (rest : List Pkt) (s : State), port < 512 → (s.port port).wire = p :: rest → p.ended = true →
    (s.portLoop port = 1 ∨ s.portLoop port = 3) →
    ∃ t, exec (.transmitComplete port) s = .next t ∧ t.out = s.out ∧
      ∀ c, c = 3 ∨ c = 4 → ctr t (0x20000 + 32 * port + c) = ctr s (0x20000 + 32 * port + c) +
        BitVec.ofNat 64 (if c = 3 then 1 else p.data.length + 4)) ∧
  ∀ (h : Fin 2) (p : Pkt) (rest : List Pkt) (s : State), (s.port (512 + h.val)).wire = p :: rest → p.ended = true →
    ∃ t d, exec (.transmitComplete (512 + h.val)) s = .next t ∧ (t.port (512 + h.val)).wire = rest ∧
      t.out = s.out ++ [.host h.val d p.stomp] ∧ Counts (Reg.hpTx h.val) 1 s t ∧
      (∃ pre post, d = pre ++ p.data ++ post) ∧ t.time = s.time) ∧
  (
  (∀ (port : Nat) (s : State), s.tm.flushing.contains port = true → s.flushedOf (port / 64) ≤ 256 →
    ∃ t, exec (.portFlush port) s = .next t ∧
      (∀ q, s.queuePort q = port → ∃ k, (t.queue q).pkts = (s.queue q).pkts.drop k) ∧
      (∀ q, s.queuePort q ≠ port → t.queue q = s.queue q) ∧
      s.flushedOf (port / 64) ≤ t.flushedOf (port / 64) ∧ t.flushedOf (port / 64) ≤ 256 ∧
      ((∀ q, s.queuePort q = port → (t.queue q).pkts = []) ∨ t.flushedOf (port / 64) = 256) ∧
      (HeldInCells s → (∀ q, (s.queue q).pages = []) → SameMem s t)) ∧
  ∀ (port : Nat) (s : State), s.tm.flushing.contains port = true → s.tm.flushEnd.contains port = false →
    (∀ q, s.queuePort q = port → (s.queue q).pkts = []) →
    exec (.portFlushEnd port) s = .next { s with tm := { s.tm with flushEnd := s.tm.flushEnd ++ [port] } })

namespace Sys2Proof.Spec

open Sys2Proof.Machine

/-! ### The control protocol (chapter 13) -/

/-- The header of the commands that are operations of a session (Table 13.2), HELLO apart. -/
def opHdr : Instr → Option OpHdr
  | .read h _ => some h
  | .write h _ _ => some h
  | .rmw h _ _ _ => some h
  | .bulkRead h _ _ => some h
  | .bulkWrite h _ _ _ => some h
  | .fence h => some h
  | .enable h => some h
  | .disable h => some h
  | .stopClusterStop h _ => some h
  | .stopClusterStart h _ => some h
  | .loadImage h _ _ _ _ _ => some h
  | .fieldRecord h => some h
  | .takeover h _ => some h
  | _ => none

/-- The commands that only the warden may send (R346). -/
def wardenOnly : Instr → Bool
  | .write _ _ _ => true
  | .rmw _ _ _ _ => true
  | .bulkWrite _ _ _ _ => true
  | .enable _ => true
  | .disable _ => true
  | .stopClusterStop _ _ => true
  | .stopClusterStart _ _ => true
  | .loadImage _ _ _ _ _ _ => true
  | _ => false

/-- DCP is served on the host port of a header, and no operation waits (R397). -/
structure Serves (s : State) (h : OpHdr) : Prop where
  phase : 5 ≤ s.boot.phase.code ∧ s.boot.phase.code ≤ 9
  up    : s.portSt (512 + h.hp.val) = .up
  quiet : s.dcp.waiting = [] ∧ s.dcp.accepted = []

/-- A new operation of an open session, in the session's version (R344, R347), while no gate request is under way (R393). -/
structure NewOp (s : State) (h : OpHdr) : Prop extends Serves s h where
  ungated : s.power.gate = none
  isOpen  : (s.session h.session.val).isOpen = true
  version : h.version.toNat = (s.session h.session.val).ver
  known   : (s.session h.session.val).ver = 2 ∨ (s.session h.session.val).ver = 3
  newer   : 0 < (h.seq - (s.session h.session.val).h).toNat ∧ (h.seq - (s.session h.session.val).h).toNat < 2 ^ 31
  room    : (s.session h.session.val).prog.length < 64
  once    : ∀ o ∈ (s.session h.session.val).prog, o.seq ≠ h.seq

/-- The session is the warden's, with the current epoch, and no check runs (R345, R346, R403). -/
structure AsWarden (s : State) (h : OpHdr) : Prop where
  warden : s.dcp.warden = some h.session.val
  epoch  : (s.session h.session.val).ver = 3 → h.epoch = s.dcp.epoch
  phase  : s.boot.phase ≠ .checking

/-- An operation has been accepted and answered (R343, R347): the response is the last of those that wait, and of the session's cache;
H is its sequence number, no operation waits, and no other session has changed. -/
def Answered (s t : State) (h : OpHdr) (status : Nat) (detail : Word32) (payload : List Byte) : Prop :=
  ∃ r : Resp, r.hdr = h ∧ r.status = status ∧ r.detail = detail ∧ r.payload = payload ∧
    t.dcp.resps = s.dcp.resps ++ [r] ∧ (t.session h.session.val).cache.getLast? = some r ∧
    (t.session h.session.val).h = h.seq ∧ (t.session h.session.val).prog = (s.session h.session.val).prog ∧
    (t.session h.session.val).isOpen = true ∧ (∀ i, i ≠ h.session.val → t.session i = s.session i) ∧
    t.dcp.waiting = [] ∧ t.dcp.accepted = []

/-- An operation has been accepted and waits (R35): no response, and H is its sequence number. -/
def Waits (s t : State) (h : OpHdr) (what : Wait) (passed : Bool) : Prop :=
  t.dcp.waiting = [⟨h, what, s.dcp.accNo + 1, passed⟩] ∧ t.dcp.accepted = [] ∧ t.dcp.resps = s.dcp.resps ∧
  (t.session h.session.val).h = h.seq ∧
  (t.session h.session.val).prog = (s.session h.session.val).prog ++ [⟨h.seq, h.hp.val, h.mac⟩]

/-- A waiting operation alone in the engine, in progress in its session, whose host port is UP. -/
structure Alone (s : State) (w : Waiting) : Prop where
  alone : s.dcp.waiting = [w] ∧ s.dcp.accepted = []
  prog  : (s.session w.hdr.session.val).prog = [⟨w.hdr.seq, w.hdr.hp.val, w.hdr.mac⟩]
  up    : s.portSt (512 + w.hdr.hp.val) = .up

/-- That operation has been answered and waits no more. -/
def Finished (s t : State) (h : OpHdr) (status : Nat) (detail : Word32) (payload : List Byte) : Prop :=
  ∃ r : Resp, r.hdr = h ∧ r.status = status ∧ r.detail = detail ∧ r.payload = payload ∧
    t.dcp.resps = s.dcp.resps ++ [r] ∧ (t.session h.session.val).cache.getLast? = some r ∧
    (t.session h.session.val).prog = [] ∧ (∀ i, i ≠ h.session.val → t.session i = s.session i) ∧ t.dcp.waiting = []

end Sys2Proof.Spec

namespace Sys2Proof.Spec

open Sys2Proof.Machine

/-- A register whose write follows the access codes of its fields alone (R12): a register of the hub outside HUB_CTL, ALMANAC, TIME, POWER,
CLOCK, CHRONICLE, KEYSTORE, CIRCULATION and CORE, or of the blocks SCRIBES and PROGSTORE of a quadrant. -/
def PlainReg (ca : Nat) : Prop :=
  (caNode ca = 0 ∧ caBlock ca ∉ [0x1, 0x4, 0x5, 0x6, 0x7, 0x9, 0xA, 0xB, 0xE]) ∨
  (4 ≤ caNode ca ∧ caBlock ca ∈ [0x12, 0x13, 0x14, 0x15])

/-- A written value has gone to the fields of a register that a write sets, and has cleared those that a 1 clears; no other
register has changed, and the data plane sees nothing of it before a boundary (R12, R16). -/
def PlainlyWritten (s t : State) (ca : Nat) (row : RegRow) (v : Word32) : Prop :=
  t.reg ca = ((s.reg ca &&& ~~~row.rw) ||| (v &&& row.rw)) &&& ~~~(v &&& row.w1c) ∧ SameRegsBut [ca] s t ∧ t.dp = s.dp

/-- A register of one word that no session holds a shadow of, whose value at the instant of a read the state fixes. -/
structure ReadsPlain (s : State) (h : OpHdr) (ca : Nat) (row : RegRow) : Prop where
  row'    : regRow ca = some row
  narrow  : row.wide = false
  shadow  : (s.session h.session.val).shadowOf ca = none
  counter : octFree ca = false
  time    : ¬(caNode ca = 0 ∧ caBlock ca = 5)
  pool    : ¬(caNode ca = 0 ∧ caBlock ca = 0xB)
  served  : s.regRefusal ca = 0
  granted : touchesCounter ca = true → s.granted h.session.val = true

end Sys2Proof.Spec

/-- READ, WRITE and RMW (R11, R12, R14, R16, R20, R24, R348). A read answers the value the register shows and clears its RC fields; an
unassigned offset reads as zero; a refused read, write or modification answers its status and changes nothing. A write by the warden
sets and clears the fields its access codes allow, and RMW does so with the bits of MASK, answering the value before it. What is written
reaches the data plane at the next boundary only. An operation for a block that a gate request under way names is held (R393).
In RUNNING a pool's COUNT is locked (R193). -/
def Obligations.RegisterOperationsFollowAccessCodes : Prop :=
  (∀ (h : OpHdr) (ca : Word32) (row : RegRow) (s : State), NewOp s h → h.flags = 0 → ReadsPlain s h ca.toNat row →
    ∃ t u : State, exec (.read h ca) s = .next t ∧ u = { s with dcp := u.dcp } ∧
      Answered s t h 0 0 (beBytes 4 (u.regView ca.toNat).toNat) ∧ t.reg ca.toNat = s.reg ca.toNat &&& ~~~row.rc ∧
      SameRegsBut [ca.toNat] s t ∧
      t = { s with
        dcp := t.dcp
        regs := t.regs
        free := t.free }) ∧
  (∀ (h : OpHdr) (ca : Word32) (s : State), NewOp s h → h.flags = 0 → regRow ca.toNat = none → s.regRefusal ca.toNat = 0 →
    ∃ t, exec (.read h ca) s = .next t ∧ Answered s t h 0 0 [0, 0, 0, 0] ∧ t = { s with dcp := t.dcp }) ∧
  (∀ (h : OpHdr) (ca v mask : Word32) (s : State), NewOp s h → h.flags = 0 → s.regRefusal ca.toNat ≠ 0 →
    (∃ t, exec (.read h ca) s = .next t ∧ Answered s t h (s.regRefusal ca.toNat) 0 [] ∧ t = { s with dcp := t.dcp }) ∧
    (AsWarden s h →
      (∃ t, exec (.write h ca v) s = .next t ∧ Answered s t h (s.regRefusal ca.toNat) 0 [] ∧ t = { s with dcp := t.dcp }) ∧
      ∃ t, exec (.rmw h ca mask v) s = .next t ∧ Answered s t h (s.regRefusal ca.toNat) 0 [] ∧
        t = { s with dcp := t.dcp })) ∧
  (∀ (h : OpHdr) (ca v : Word32) (row : RegRow) (s : State), NewOp s h → h.flags = 0 → AsWarden s h →
    s.regRefusal ca.toNat = 0 → regRow ca.toNat = some row → PlainReg ca.toNat →
    ∃ t, exec (.write h ca v) s = .next t ∧ Answered s t h 0 0 [] ∧ (t.session h.session.val).fresh = true ∧
      PlainlyWritten s t ca.toNat row v ∧
      t = { s with
        dcp := t.dcp
        regs := t.regs
        wideHeld := t.wideHeld }) ∧
  (∀ (h : OpHdr) (ca mask v : Word32) (row : RegRow) (s : State), NewOp s h → h.flags = 0 → AsWarden s h →
    ReadsPlain s h ca.toNat row → row.rc = 0 → PlainReg ca.toNat →
    ∃ t u : State, exec (.rmw h ca mask v) s = .next t ∧ u = { s with dcp := u.dcp } ∧
      Answered s t h 0 0 (beBytes 4 (u.regView ca.toNat).toNat) ∧
      PlainlyWritten s t ca.toNat row ((u.regView ca.toNat &&& ~~~mask) ||| (v &&& mask)) ∧
      t = { s with
        dcp := t.dcp
        regs := t.regs
        wideHeld := t.wideHeld
        free := t.free }) ∧
  (∀ (ca v : Word32) (row : RegRow) (s : State), s.regRefusal ca.toNat = 0 → s.boot.phase ≠ .checking →
    regRow ca.toNat = some row → PlainReg ca.toNat →
    ∃ t, exec (.registerWrite ca v) s = .next t ∧ PlainlyWritten s t ca.toNat row v ∧
      t = { s with
        regs := t.regs
        wideHeld := t.wideHeld }) ∧
  (∀ (c : Instr) (h : OpHdr) (ca : Word32) (s : State), NewOp { s with power := { s.power with gate := none } } h →
    (c = .read h ca ∨ (∃ v, c = .write h ca v) ∨ ∃ m v, c = .rmw h ca m v) → bit (s.reg Reg.clkGateCmd) 0 = true →
    (∃ since, s.power.gate = some (caNode ca.toNat * 256 + caBlock ca.toNat, since)) → h.flags.toNat < 8 →
    ∃ t o, exec c s = .next t ∧ t.dcp.accepted = [o] ∧ o.hdr = h ∧ t.dcp.resps = s.dcp.resps ∧ (t.session h.session.val).h = h.seq ∧
      (t.session h.session.val).prog = (s.session h.session.val).prog ++ [⟨h.seq, h.hp.val, h.mac⟩] ∧ t = { s with dcp := t.dcp }) ∧
  ∀ (h : OpHdr) (p : Fin 16) (v : Word32) (s : State), NewOp s h → h.flags = 0 → AsWarden s h → s.boot.phase = .running →
    ∃ t, exec (.write h (BitVec.ofNat 32 (Reg.circPoolCount p.val)) v) s = .next t ∧ Answered s t h 0x0010 0 [] ∧
      t = { s with dcp := t.dcp }

/-- Bulk transfers (R25, R26, R181, R182, R204, R348). BULK_WRITE stores its bytes at its addresses, in the Stacks (where the two copies of
a FREE_RING stripe keep one contents) or in a wing's units, and every other byte reads as before; BULK_READ answers the bytes that
stand there, or in the on-die buffer while the device is not RUNNING, or in a program store, and changes none. With LOCK every unit of a wing that the transfer
touches is locked; with UNLOCK none of them is, and only H bits of its entries may be set besides. A length of zero, a misaligned or too long transfer, and one outside every range is
refused, and so is one of a wing or a program store before the nodes are ready (R24), and has no effect. -/
def Obligations.BulkTransfersMoveBytes : Prop :=
  (∀ (h : OpHdr) (addr : Word64) (len : Word32) (data : List Byte) (s : State), NewOp s h → h.flags = 0 → AsWarden s h →
    len.toNat = data.length → 0 < data.length → data.length ≤ 8192 → data.length % 4 = 0 → addr.toNat % 4 = 0 →
    addr.toNat + data.length ≤ 0xC00000000 → s.stacksOk addr.toNat data.length = true →
    ∃ t, exec (.bulkWrite h addr len data) s = .next t ∧ Answered s t h 0 0 [] ∧
      (∀ i, i < data.length → (∀ j, i < j → j < data.length → s.stkHome (addr.toNat + j) ≠ s.stkHome (addr.toNat + i)) →
        memRead t.mem (s.stkHome (addr.toNat + i)) = data.getD i 0) ∧
      (∀ a, (∀ i, i < data.length → s.stkHome (addr.toNat + i) ≠ a) → memRead t.mem a = memRead s.mem a) ∧
      (s.touchesRing addr.toNat data.length = false → ∀ i, i < data.length → s.stkHome (addr.toNat + i) = addr.toNat + i) ∧
      t = { s with
        dcp := t.dcp
        mem := t.mem }) ∧
  (∀ (h : OpHdr) (w o : Nat) (addr : Word64) (len : Word32) (data : List Byte) (s : State), NewOp s h → h.flags.toNat ≤ 2 →
    AsWarden s h → s.boot.nodesReady = true → w < 8 → o + data.length ≤ 0x4000000 → addr.toNat = wingAddr w o → len.toNat = data.length →
    0 < data.length → data.length ≤ 8192 → data.length % 4 = 0 → o % 4 = 0 →
    (∀ u, o / 64 ≤ u → u ≤ (o + data.length - 1) / 64 → (s.wing w).dead.contains u = false ∧ (h.flags ≠ 0 → lockable u = true)) →
    ∃ t, exec (.bulkWrite h addr len data) s = .next t ∧ Answered s t h 0 0 [] ∧
      (∀ a, ∃ b : Byte,
        b = (if addr.toNat ≤ a ∧ a < addr.toNat + data.length then data.getD (a - addr.toNat) 0 else memRead s.mem a) ∧
        (memRead t.mem a = b ∨ (h.flags = 2 ∧ wingAddr w (o / 64 * 64) ≤ a ∧ a < wingAddr w (o + data.length + 63) ∧
          memRead t.mem a = b ||| 4))) ∧
      (∀ u, u ∈ (t.wing w).locks ↔
        if o / 64 ≤ u ∧ u ≤ (o + data.length - 1) / 64 ∧ h.flags ≠ 0 then h.flags = 1 else u ∈ (s.wing w).locks) ∧
      (∀ i, i ≠ w → t.wing i = s.wing i) ∧
      t = { s with
        dcp := t.dcp
        mem := t.mem
        wings := t.wings }) ∧
  (∀ (h : OpHdr) (addr : Word64) (len : Word32) (s : State), NewOp s h → h.flags = 0 → 0 < len.toNat → len.toNat ≤ 8192 →
    len.toNat % 4 = 0 → addr.toNat % 4 = 0 →
    ((addr.toNat + len.toNat ≤ 0xC00000000 ∧ s.stacksOk addr.toNat len.toNat = true ∧ s.gddr.readFail = [] ∧
        (s.inChron addr.toNat len.toNat = true → s.granted h.session.val = true)) ∨
      (s.boot.nodesReady = true ∧ ∃ w o, w < 8 ∧ o + len.toNat ≤ 0x4000000 ∧ addr.toNat = wingAddr w o) ∨
      (s.boot.phase ≠ .running ∧ 0xB00000000000 ≤ addr.toNat ∧ addr.toNat + len.toNat ≤ 0xB00014000000)) →
    ∃ t, exec (.bulkRead h addr len) s = .next t ∧
      Answered s t h 0 0 ((List.range len.toNat).map (fun i =>
        memRead s.mem (if addr.toNat < 0xC00000000 then s.stkHome (addr.toNat + i) else addr.toNat + i))) ∧
      t = { s with dcp := t.dcp }) ∧
  (∀ (h : OpHdr) (addr : Word64) (len : Word32) (k o : Nat) (s : State), NewOp s h → h.flags = 0 → 0 < len.toNat → len.toNat ≤ 8192 →
    len.toNat % 4 = 0 → o % 4 = 0 → s.boot.nodesReady = true → k < 32 → o + len.toNat ≤ 0x20000 →
    addr.toNat = 0x900000000000 + k * 0x1000000 + o →
    ∃ t, exec (.bulkRead h addr len) s = .next t ∧
      Answered s t h 0 0 ((List.range len.toNat).map (fun i =>
        (leBytes 8 (((s.cluster k).prog.elim 0 (fun p => p.words.getD ((o + i) / 8) 0)) ^^^
          (SMap.find 0 (s.cluster k).mainErr ((o + i) / 8)).setWidth 64).toNat).getD ((o + i) % 8) 0)) ∧
      t = { s with dcp := t.dcp }) ∧
  (∀ (h : OpHdr) (addr : Word64) (len : Word32) (data : List Byte) (s : State), NewOp s h → h.flags = 0 → s.boot.nodesReady = false →
    0 < data.length → len.toNat = data.length → data.length ≤ 8192 → data.length % 4 = 0 → addr.toNat % 4 = 0 →
    ((∃ w o, w < 8 ∧ o + data.length ≤ 0x4000000 ∧ addr.toNat = wingAddr w o) ∨
      ∃ k o, k < 32 ∧ o + data.length ≤ 0x20000 ∧ addr.toNat = 0x900000000000 + k * 0x1000000 + o) →
    (∃ t, exec (.bulkRead h addr len) s = .next t ∧ Answered s t h 0x0007 0 [] ∧ t = { s with dcp := t.dcp }) ∧
    (AsWarden s h →
      ∃ t, exec (.bulkWrite h addr len data) s = .next t ∧ Answered s t h 0x0007 0 [] ∧ t = { s with dcp := t.dcp })) ∧
  ∀ (h : OpHdr) (addr : Word64) (len : Word32) (s : State), NewOp s h → h.flags = 0 →
    ∃ t, exec (.bulkRead h addr len) s = .next t ∧
      (len = 0 → Answered s t h 0x0004 0 [] ∧ t = { s with dcp := t.dcp }) ∧
      (len ≠ 0 → (addr.toNat % 4 ≠ 0 ∨ len.toNat % 4 ≠ 0) → Answered s t h 0x0005 0 [] ∧ t = { s with dcp := t.dcp }) ∧
      (addr.toNat % 4 = 0 → len.toNat % 4 = 0 → 8192 < len.toNat → Answered s t h 0x0003 0 [] ∧ t = { s with dcp := t.dcp }) ∧
      (len ≠ 0 → addr.toNat % 4 = 0 → len.toNat % 4 = 0 → len.toNat ≤ 8192 → 0xB00014000000 ≤ addr.toNat →
        Answered s t h 0x0006 0 [] ∧ t = { s with dcp := t.dcp })

/-- Delivery at most once, and the rights of a session (R343 to R347). For each of the thirteen operations of a session: with no session open the
answer is NO_SESSION; a sequence number already answered is answered again from the cache, and one below H that is not there with SEQ_OLD, with no
other effect; an operation that only the warden may send, from another session, is answered NOT_WARDEN, or with an old epoch STALE_EPOCH, which is
recorded, and has no effect. Fences (R35, R185, R186, R348). A FENCE waits, and nothing else happens; it may be answered at once where no operation of
its session completed since the last boundary. Answered, it is an ACK; with DRAIN it begins a drain instead, whose marks are all that entered before
it. The drain ends when no packet and no learn request carries its mark, or with FENCE_TIMEOUT when QMAX_SOJOURN ticks have passed, naming how many
queues still hold one. -/
def Obligations.OperationsRunOnceAndFencesWait : Prop :=
  (
  (∀ (c : Instr) (h : OpHdr) (s : State), opHdr c = some h → Serves s h → h.flags.toNat < 8 →
    (s.session h.session.val).isOpen = false →
    exec c s = .next { s with dcp := { s.dcp with
      resps := s.dcp.resps ++ [⟨h, 0x0008, 0, [], none⟩] } }) ∧
  (∀ (c : Instr) (h : OpHdr) (r : Resp) (s : State), opHdr c = some h → Serves s h → h.flags.toNat < 8 →
    (s.session h.session.val).isOpen = true →
    ¬(0 < (h.seq - (s.session h.session.val).h).toNat ∧ (h.seq - (s.session h.session.val).h).toNat < 2 ^ 31) →
    (s.session h.session.val).cache.find? (fun x => decide (x.hdr.seq = h.seq)) = some r →
    exec c s = .next { s with dcp := { s.dcp with
      resps := s.dcp.resps ++ [{ r with
        hdr := { r.hdr with
          hp := h.hp
          mac := h.mac }
        etype := none }] } }) ∧
  (∀ (c : Instr) (h : OpHdr) (s : State), opHdr c = some h → Serves s h → h.flags.toNat < 8 →
    (s.session h.session.val).isOpen = true →
    ¬(0 < (h.seq - (s.session h.session.val).h).toNat ∧ (h.seq - (s.session h.session.val).h).toNat < 2 ^ 31) →
    (∀ x ∈ (s.session h.session.val).cache, x.hdr.seq ≠ h.seq) → (∀ o ∈ (s.session h.session.val).prog, o.seq ≠ h.seq) →
    exec c s = .next { s with dcp := { s.dcp with
      resps := s.dcp.resps ++ [⟨h, 0x000D, 0, [], none⟩] } }) ∧
  ∀ (c : Instr) (h : OpHdr) (s : State), opHdr c = some h → wardenOnly c = true → NewOp s h → h.flags = 0 →
    opLengthOk 6 (match c with | .bulkWrite _ a n d => beBytes 8 a.toNat ++ beBytes 4 n.toNat ++ d | _ => List.replicate 12 0) = true →
    (match c with | .loadImage _ _ _ _ _ seg => seg.length ≤ 8192 | _ => True) →
    (s.dcp.warden ≠ some h.session.val ∨ ((s.session h.session.val).ver = 3 ∧ h.epoch ≠ s.dcp.epoch)) →
    ∃ t, exec c s = .next t ∧
      Answered s t h (if (s.session h.session.val).ver = 3 ∧ h.epoch ≠ s.dcp.epoch then 0x000A else 0x0009) 0 [] ∧
      SameRegsBut [Reg.dcpEvents] s t ∧
      ((s.session h.session.val).ver = 3 ∧ h.epoch ≠ s.dcp.epoch → SetsBit Reg.dcpEvents 3 s t) ∧
      t = { s with
        dcp := t.dcp
        regs := t.regs }) ∧
  (
  (∀ (h : OpHdr) (s : State), NewOp s h → (h.flags = 0 ∨ h.flags = 4) →
    ∃ t, exec (.fence h) s = .next t ∧ Waits s t h .fence (!(s.session h.session.val).fresh) ∧ t = { s with dcp := t.dcp }) ∧
  (∀ (w : Waiting) (s : State), Alone s w → w.what = .fence → w.passed = true →
    ∃ t, exec (.fenceComplete w.hdr.session w.hdr.seq) s = .next t ∧
      (if bit w.hdr.flags 2 then
        t.dcp.drainNo = s.dcp.drainNo + 1 ∧ t.dcp.waiting = [{ w with what := .drain s.now (s.dcp.drainNo + 1) }] ∧
        t.dcp.resps = s.dcp.resps
      else Finished s t w.hdr 0 0 []) ∧ t = { s with dcp := t.dcp }) ∧
  (∀ (w : Waiting) (since n : Nat) (s : State), Alone s w → w.what = .drain since n →
    (∀ p ∈ s.allPkts, n ≤ p.drain) → (∀ x ∈ s.wings, ∀ l ∈ x.2.learnQ ++ x.2.retry, n ≤ l.drain) →
    ∃ t, exec (.fenceDrainComplete w.hdr.session w.hdr.seq) s = .next t ∧ Finished s t w.hdr 0 0 [] ∧
      t = { s with dcp := t.dcp }) ∧
  ∀ (w : Waiting) (since n : Nat) (s : State), Alone s w → w.what = .drain since n → s.cfg Reg.dcpQmaxSojourn ≠ 0 →
    since + (s.cfg Reg.dcpQmaxSojourn).toNat ≤ s.now →
    ∃ t payload, exec (.fenceTimeout w.hdr.session w.hdr.seq) s = .next t ∧
      Finished s t w.hdr 0x0012 (BitVec.ofNat 32
        ((s.tm.queues.filter (fun x => x.2.pkts.any (fun p => decide (p.drain < n)))).length +
          (s.tm.voq.filter (fun x => x.2.pkts.any (fun p => decide (p.drain < n)))).length)) payload ∧
      payload.length ≤ 1024 ∧ t = { s with dcp := t.dcp })

namespace Sys2Proof.Spec

open Sys2Proof.Machine

/-- The warden as a payload names it (R344): valid in bit 7, its session in bits 3 to 0. -/
def wardenName : Option Nat → Byte
  | none => 0
  | some i => BitVec.ofNat 8 (128 + i)

/-- A check has passed, or refused with a reason code and a detail word (R404). -/
def CheckTold (r : Option (Nat × Nat)) (s t : State) : Prop :=
  match r with
  | none => t.reg Reg.hubCheckResult = 1 ∧ t.reg Reg.hubCheckDetail = 0 ∧ t.reg Reg.hubEvents = s.reg Reg.hubEvents
  | some x =>
    t.reg Reg.hubCheckResult = BitVec.ofNat 32 (x.1 * 65536 + 2) ∧ t.reg Reg.hubCheckDetail = BitVec.ofNat 32 x.2 ∧
    SetsBit Reg.hubEvents 1 s t

end Sys2Proof.Spec

/-- HELLO (R344, R345, R346, R397): with a version in common it opens, or with role 0 closes, its session, forgets what the session had, and answers
the version, the epoch and the warden. A warden's HELLO needs the role to be vacant or its own, and in version 3 a newer epoch; it takes a device in
HOST_UP to LOADED. Held by another session the role is refused, and nothing changes. TAKEOVER (R345): with a newer epoch, and nothing to wait for, the
session is the warden at once; the old warden and how far it had come are answered, the event is recorded and a notice tells it. An epoch that is not
newer is refused, and recorded. -/
def Obligations.SessionsAndTheWarden : Prop :=
  (
  (∀ (h : OpHdr) (lo hi role : BitVec 8) (s : State), Serves s h → h.flags = 0 → lo.toNat ≤ 3 → 2 ≤ hi.toNat → lo.toNat ≤ hi.toNat →
    role.toNat ≤ 2 →
    (role = 2 → (s.dcp.warden = none ∨ s.dcp.warden = some h.session.val) ∧
      (3 ≤ hi.toNat → s.dcp.epoch.toNat < h.epoch.toNat)) →
    ∃ t, exec (.hello h lo hi role) s = .next t ∧
      let ver := min hi.toNat 3
      let i := h.session.val
      (if role = 0 then (t.session i).isOpen = false
       else (t.session i).isOpen = true ∧ (t.session i).ver = ver ∧ (t.session i).h = h.seq) ∧
      (t.session i).prog = [] ∧ (t.session i).cache = [] ∧ (∀ j, j ≠ i → t.session j = s.session j) ∧
      t.dcp.warden = (if role = 2 then some i else if s.dcp.warden = some i then none else s.dcp.warden) ∧
      t.dcp.epoch = (if role = 2 ∧ ver = 3 then h.epoch else s.dcp.epoch) ∧
      (∃ r : Resp, t.dcp.resps = s.dcp.resps ++ [r] ∧ r.hdr = h ∧ r.status = 0 ∧
        r.payload = [2, 3, BitVec.ofNat 8 ver, role] ++ beBytes 4 t.dcp.epoch.toNat ++ [wardenName t.dcp.warden, 0, 0, 0]) ∧
      t.boot = { s.boot with phase := if role = 2 ∧ s.boot.phase = .hostUp then .loaded else s.boot.phase } ∧
      bit (t.reg Reg.dcpGrant) i = false ∧ SameRegsBut [Reg.dcpGrant] s t ∧
      t = { s with
        dcp := t.dcp
        boot := t.boot
        regs := t.regs }) ∧
  ∀ (h : OpHdr) (lo hi : BitVec 8) (j : Nat) (s : State), Serves s h → h.flags = 0 →
    lo.toNat ≤ 3 → 2 ≤ hi.toNat → lo.toNat ≤ hi.toNat → s.dcp.warden = some j → j ≠ h.session.val →
    ∃ t, exec (.hello h lo hi 2) s = .next t ∧ (∃ r : Resp, t.dcp.resps = s.dcp.resps ++ [r] ∧ r.hdr = h ∧ r.status = 0x000B) ∧
      t = { s with dcp := { s.dcp with resps := t.dcp.resps } }) ∧
  (
  (∀ (h : OpHdr) (e : Word32) (s : State), NewOp s h → h.flags = 0 → (s.session h.session.val).ver = 3 →
    s.dcp.epoch.toNat < e.toNat → (∀ i, i < 16 → (s.session i).fresh = false) → s.dcp.notices.length < 1024 →
    ∃ t, exec (.takeover h e) s = .next t ∧ t.dcp.warden = some h.session.val ∧ t.dcp.epoch = e ∧
      Answered s t h 0 0 ([wardenName s.dcp.warden, 0, 0, 0] ++ beBytes 4 (match s.dcp.warden with
        | none => 0
        | some j => if j = h.session.val then h.seq.toNat else (s.session j).h.toNat)) ∧
      (∃ n : Notice, t.dcp.notices = s.dcp.notices ++ [n] ∧ n.type = 0x0071 ∧
        n.body = [BitVec.ofNat 8 h.session.val, 0, 0, 0] ++ beBytes 4 e.toNat) ∧
      SetsBit Reg.dcpEvents 1 s t ∧ SameRegsBut [Reg.dcpEvents] s t ∧
      t = { s with
        dcp := t.dcp
        regs := t.regs
        free := t.free }) ∧
  ∀ (h : OpHdr) (e : Word32) (s : State), NewOp s h → h.flags = 0 → (s.session h.session.val).ver = 3 →
    e.toNat ≤ s.dcp.epoch.toNat →
    ∃ t, exec (.takeover h e) s = .next t ∧ t.dcp.warden = s.dcp.warden ∧ t.dcp.epoch = s.dcp.epoch ∧ Answered s t h 0x000A 0 [] ∧
      SetsBit Reg.dcpEvents 3 s t ∧ SameRegsBut [Reg.dcpEvents] s t ∧
      t = { s with
        dcp := t.dcp
        regs := t.regs })

/-- ENABLE, its check, DISABLE and the drain (R403, R404, R408). ENABLE in LOADED, with nothing to wait for, begins the check; else it waits;
in another phase it is refused. A check that passes moves nothing until the boundary; one that refuses answers the reason at once.
DISABLE in RUNNING waits. The drain ends when queues, residue and admission are empty: no packet and no run is left; until then, and
before its time, nothing happens. -/
def Obligations.EnableChecksAndDisableDrains : Prop :=
  (∀ (h : OpHdr) (s : State), NewOp s h → h.flags = 0 → AsWarden s h → s.boot.phase = .loaded →
    ∃ t, exec (.enable h) s = .next t ∧
      ((∀ i, i < 16 → (s.session i).fresh = false) → Waits s t h .enable true ∧
        t = { s with
          dcp := t.dcp
          boot := { s.boot with phase := .checking } } ∧ t.dcp.check = none) ∧
      (∀ i, i < 16 → (s.session i).fresh = true → Waits s t h .enable false ∧ t = { s with dcp := t.dcp })) ∧
  (∀ (h : OpHdr) (s : State), NewOp s h → h.flags = 0 → AsWarden s h → s.boot.phase ≠ .loaded →
    ∃ t, exec (.enable h) s = .next t ∧ Answered s t h 0x000F 0 [] ∧ t = { s with dcp := t.dcp }) ∧
  (∀ s : State, s.boot.phase ≠ .checking ∨ s.dcp.check ≠ none ∨ s.boot.stop ≠ none → exec .checkComplete s = .next s) ∧
  (∀ s : State, s.boot.phase = .checking → s.dcp.check = none → s.boot.stop = none →
    ∃ t, exec .checkComplete s = .next t ∧ CheckTold s.enableRefusal s t ∧
      t.reg Reg.almBudget = BitVec.ofNat 32 (s.checkU * 65536 + s.maxWcet % 65536) ∧
      SameRegsBut [Reg.almBudget, Reg.hubCheckResult, Reg.hubCheckDetail, Reg.hubEvents] s t ∧
      (s.enableRefusal = none → t.dcp = { s.dcp with check := some (0, 0) }) ∧
      (∀ (w : Waiting) (x : Nat × Nat), Alone s w → w.what = .enable → s.enableRefusal = some x →
        Finished s t w.hdr 0x0013 (BitVec.ofNat 32 x.2) (beBytes 2 x.1 ++ [0, 0]) ∧ t.dcp.check = some x) ∧
      t = { s with
        dcp := t.dcp
        regs := t.regs }) ∧
  (∀ (h : OpHdr) (s : State), NewOp s h → h.flags = 0 → AsWarden s h →
    ∃ t, exec (.disable h) s = .next t ∧
      (s.boot.phase = .running → ∃ p, Waits s t h .disable p) ∧ (s.boot.phase ≠ .running → Answered s t h 0x000F 0 []) ∧
      t = { s with dcp := t.dcp }) ∧
  (∀ s : State, s.boot.phase = .disabling → s.dcp.drained = false →
    (∀ x ∈ s.tm.queues, x.2.pkts = []) → (∀ x ∈ s.tm.hostQ, x.2 = []) → (∀ x ∈ s.tm.voq, x.2.pkts = []) → s.tm.residue = [] →
    (∀ x ∈ s.slices, x.2.fifo = []) →
    ∃ t, exec .drainEnd s = .next t ∧ t.dcp.drained = true ∧ t.allPkts = [] ∧ t.threads = [] ∧ t.boot = s.boot) ∧
  ∀ (x : Nat × Queue) (s : State), s.boot.phase = .disabling → s.dcp.drained = false → x ∈ s.tm.queues → x.2.pkts ≠ [] →
    s.now < s.dcp.drainAt + bits (s.cfg Reg.hubDisable) 19 0 → exec .drainEnd s = .next s

/-- STOP_CLUSTER (R83, R90, R92). A stop action marks RUNNING clusters it names to stop at the boundary, and FAILED ones to be emptied, and leaves
every other as it is. A start action in RUNNING puts the STOPPED clusters it names under check and waits; with a refused check a cluster is STOPPED
again and the action answers the reason, with a passed one it will run. A start that names an EMPTY or FAILED cluster, and any action that names one
under check, is refused and changes nothing. LOAD_IMAGE (R86, R87, R91, R94, R349) stages a first segment that does not end its image; one that does
not continue what is staged empties the buffer. A segment that completes an image has the named cluster judge it: accepted, the cluster holds it and,
EMPTY with both images, is STOPPED; refused, only the status is recorded. A RUNNING cluster refuses every image. One of TOTAL 0 does nothing (R10).
FIELD_RECORD answers its 8,192 bytes. -/
def Obligations.ClustersAndTheirImages : Prop :=
  (
  (∀ (h : OpHdr) (mask : Word32) (s : State), NewOp s h → h.flags = 0 → AsWarden s h →
    (s.boot.phase = .loaded ∨ s.boot.phase = .running) → (∀ k, k < 32 → bit mask k = true → (s.cluster k).state ≠ .checking) →
    ∃ t, exec (.stopClusterStop h mask) s = .next t ∧ Answered s t h 0 0 [] ∧
      (∀ k, t.cluster k =
        if k < 32 ∧ bit mask k = true ∧ (s.cluster k).state = .running then { s.cluster k with stopNext := true }
        else if k < 32 ∧ bit mask k = true ∧ (s.cluster k).state = .failed then { s.cluster k with emptyNext := true }
        else s.cluster k) ∧
      t = { s with
        dcp := t.dcp
        clusters := t.clusters }) ∧
  (∀ (h : OpHdr) (mask : Word32) (k : Nat) (s : State), NewOp s h → h.flags = 0 → AsWarden s h → s.boot.phase = .running →
    k < 32 → bit mask k = true → (s.cluster k).state = .stopped →
    (∀ j, j < 32 → bit mask j = true → (s.cluster j).state = .stopped ∨ (s.cluster j).state = .running) →
    ∃ t m p, exec (.stopClusterStart h mask) s = .next t ∧ Waits s t h (.start m none) p ∧
      (∀ j, j < 32 → (bit m j = true ↔ bit mask j = true ∧ (s.cluster j).state = .stopped)) ∧
      (∀ j, t.cluster j =
        if j < 32 ∧ bit mask j = true ∧ (s.cluster j).state = .stopped then { s.cluster j with state := .checking }
        else s.cluster j) ∧
      t = { s with
        dcp := t.dcp
        clusters := t.clusters }) ∧
  (∀ (h : OpHdr) (mask : Word32) (k : Nat) (s : State), NewOp s h → h.flags = 0 → AsWarden s h →
    (s.boot.phase = .loaded ∨ s.boot.phase = .running) → k < 32 → bit mask k = true →
    (∀ j, j < k → bit mask j = true → (s.cluster j).state = .stopped ∨ (s.cluster j).state = .running) →
    ((s.cluster k).state = .checking ∨ (s.cluster k).state = .empty ∨ (s.cluster k).state = .failed) →
    ∃ t, exec (.stopClusterStart h mask) s = .next t ∧ Answered s t h 0x000F (BitVec.ofNat 32 k) [] ∧ t = { s with dcp := t.dcp }) ∧
  ∀ (w : Waiting) (mask : Word32) (k : Fin 32) (s : State), Alone s w → w.what = .start mask none →
    (∀ j, j < 32 → (bit mask j = true ↔ j = k.val)) → (s.cluster k.val).state = .checking →
    ∃ t, exec (.clusterCheckDone k) s = .next t ∧ CheckTold (s.startRefusal k.val) s t ∧
      (match s.startRefusal k.val with
        | none => Finished s t w.hdr 0 0 [] ∧ t.cluster k.val = { s.cluster k.val with runNext := true }
        | some x => Finished s t w.hdr 0x0013 (BitVec.ofNat 32 x.2) (beBytes 2 x.1 ++ [0, 0]) ∧
          t.cluster k.val = { s.cluster k.val with state := .stopped }) ∧
      (∀ j, j ≠ k.val → t.cluster j = s.cluster j) ∧
      SameRegsBut [Reg.hubCheckResult, Reg.hubCheckDetail, Reg.hubEvents] s t ∧
      t = { s with
        dcp := t.dcp
        regs := t.regs
        clusters := t.clusters }) ∧
  (
  (∀ (h : OpHdr) (kind : BitVec 8) (mask total : Word32) (seg : List Byte) (s : State), NewOp s h → h.flags = 0 → AsWarden s h →
    (kind = 1 ∨ kind = 2) → seg.length ≤ 8192 → seg.length < total.toNat →
    ∃ t, exec (.loadImage h kind mask total 0 seg) s = .next t ∧ Answered s t h 0 0 [] ∧
      t.dcp.staging = some ⟨kind.toNat, mask, total.toNat, seg⟩ ∧ t = { s with dcp := t.dcp }) ∧
  (∀ (h : OpHdr) (kind : BitVec 8) (mask total off : Word32) (seg : List Byte) (s : State), NewOp s h → h.flags = 0 → AsWarden s h →
    seg.length ≤ 8192 → off ≠ 0 → total ≠ 0 →
    (∀ g, s.dcp.staging = some g → g.bytes.length ≠ off.toNat ∨ g.kind ≠ kind.toNat ∨ g.mask ≠ mask ∨ g.total ≠ total.toNat) →
    ∃ t, exec (.loadImage h kind mask total off seg) s = .next t ∧ Answered s t h 0x001B 0 [] ∧ t.dcp.staging = none ∧
      t = { s with dcp := t.dcp }) ∧
  (∀ (h : OpHdr) (g : Staging) (kind : BitVec 8) (mask total off : Word32) (seg : List Byte) (k : Nat) (s : State), NewOp s h →
    h.flags = 0 → AsWarden s h → (kind = 1 ∨ kind = 2) → seg.length ≤ 8192 → total ≠ 0 →
    ((off = 0 ∧ g.bytes = []) ∨ (off ≠ 0 ∧ s.dcp.staging = some g ∧ g.kind = kind.toNat ∧ g.mask = mask ∧ g.total = total.toNat)) →
    g.bytes.length = off.toNat → g.bytes.length + seg.length = total.toNat → k < 32 →
    (∀ j, j < 32 → (bit mask j = true ↔ j = k)) →
    ∃ t, exec (.loadImage h kind mask total off seg) s = .next t ∧ t.dcp.staging = none ∧
      let b := g.bytes ++ seg
      let c := s.cluster k
      let r := if kind = 1 then programRefusal b c.codex else codexRefusal b c.prog
      if c.state = .running ∨ c.state = .checking then
        Answered s t h 0x001A (BitVec.ofNat 32 (k * 65536)) [] ∧ t = { s with dcp := t.dcp }
      else
        (match r with
          | some x => Answered s t h x.1 (BitVec.ofNat 32 (k * 65536 + x.2 % 65536)) [] ∧ t.cluster k = c ∧
            t.reg (Reg.psLoadStatus (k / 4) (k % 4)) = BitVec.ofNat 32 (x.2 % 65536 * 65536 + x.1) ∧
            SameRegsBut [Reg.psLoadStatus (k / 4) (k % 4)] s t
          | none => Answered s t h 0 0 [] ∧ t.reg (Reg.psLoadStatus (k / 4) (k % 4)) = 0 ∧
            (t.cluster k).prog = (if kind = 1 then some (programOf b) else c.prog) ∧
            (t.cluster k).codex = (if kind = 1 then c.codex else some (codexOf b)) ∧
            (t.cluster k).state =
              (if c.state = .empty ∧ (t.cluster k).codex.isSome ∧ (t.cluster k).prog.isSome then .stopped else c.state) ∧
            (kind = 1 → t.reg (Reg.powJob k 0) = 0 ∧ t.reg (Reg.powJob k 1) = 0)) ∧
        (∀ j, j ≠ k → t.cluster j = s.cluster j) ∧
        t = { s with
          dcp := t.dcp
          regs := t.regs
          clusters := t.clusters }) ∧
  (∀ (h : OpHdr) (kind : BitVec 8) (mask off : Word32) (seg : List Byte) (s : State), NewOp s h → h.flags = 0 → AsWarden s h →
    seg.length ≤ 8192 →
    ∃ t, exec (.loadImage h kind mask 0 off seg) s = .next t ∧ Answered s t h 0 0 [] ∧ t = { s with dcp := t.dcp } ∧
      t.dcp.staging = s.dcp.staging) ∧
  ∀ (h : OpHdr) (s : State), NewOp s h → h.flags = 0 → (s.session h.session.val).ver = 3 → s.vigil.log.length ≤ 256 →
    lifeBurnt + s.vigil.life.length ≤ 128 →
    ∃ t payload, exec (.fieldRecord h) s = .next t ∧ Answered s t h 0 0 payload ∧ payload.length = 8192 ∧
      payload.take 4 = [0x46, 0x52, 0x43, 0x31] ∧ payload.getD 6 0 = BitVec.ofNat 8 s.boot.phase.code ∧
      payload.drop 8188 = beBytes 4 (crc32 polyEth (payload.take 8188)).toNat ∧
      t = { s with
        dcp := t.dcp
        free := t.free })

namespace Sys2Proof.Spec

open Sys2Proof.Machine

/-- A header of Table 13.1 as it stands in a frame. -/
def headBytes (h : OpHdr) (opcode status len : Nat) (epoch detail : Word32) : List Byte :=
  [h.version, BitVec.ofNat 8 (h.session.val * 16), h.flags, BitVec.ofNat 8 opcode] ++ beBytes 4 h.seq.toNat ++ beBytes 2 status ++
  beBytes 2 len ++ beBytes 4 h.tag.toNat ++ beBytes 4 epoch.toNat ++ beBytes 4 detail.toNat

/-- A DCP frame has been taken on a host port: it is counted, and its instant recorded (R337, R340). -/
def FrameTaken (hp : Nat) (s u : State) : Prop :=
  Counts (Reg.hpRxDcp hp) 1 s u ∧ SameRegsBut [Reg.hpRxDcp hp] s u ∧ u.hp hp = { s.hp hp with lastDcp := some s.now } ∧
  u.hp (1 - hp) = s.hp (1 - hp) ∧
  u = { s with
    regs := u.regs
    dcp := { s.dcp with
      hp0 := u.dcp.hp0
      hp1 := u.dcp.hp1 } }

/-- The lengths of the notices' bodies (Table 13.4). -/
def noticeTable : List (Nat × Nat) :=
  [(0x01, 72), (0x02, 72), (0x03, 72), (0x04, 72), (0x10, 8), (0x11, 8), (0x12, 8), (0x20, 0), (0x21, 4), (0x22, 4), (0x23, 4),
   (0x30, 12), (0x31, 12), (0x40, 12), (0x41, 8), (0x50, 0), (0x60, 8), (0x70, 4), (0x71, 8), (0x72, 4)]

/-- A host port has failed over from a to the other, for a cause (R340). -/
def FailedOver (a cause : Nat) (s t : State) : Prop :=
  t.dcp.active = 1 - a ∧ bit (t.reg Reg.dcpHostport) 0 = decide (a = 0) ∧ bit (t.cfg Reg.dcpHostport) 0 = decide (a = 0) ∧
  (∃ n : Notice, t.dcp.notices = s.dcp.notices ++ [n] ∧ n.type = 0x0070 ∧ n.ns = nsOf (s.oAt 0) ∧
    n.body = [BitVec.ofNat 8 (1 - a), BitVec.ofNat 8 cause, 0, 0]) ∧
  SetsBit Reg.dcpEvents 0 s t ∧ SameRegsBut [Reg.dcpHostport, Reg.dcpEvents] s t ∧
  t = { s with
    tm := { s.tm with hostQ := t.tm.hostQ }
    dcp := t.dcp
    regs := t.regs
    dp := t.dp }

/-- A failover for a cause falls at the next boundary, and nothing else has changed (R340). -/
def FailDue (cause : Nat) (s t : State) : Prop := t = { s with dcp := { s.dcp with failTo := some cause } }

/-- The cells that a packet of the host is written into: those of the pool of its port (R153). -/
def injPool (s : State) (hp : Nat) : Nat := bits (s.cfg (Reg.hpCfg hp)) 19 16

end Sys2Proof.Spec

/-- What a host port takes (R337, R342, R343). A good frame to the port's own address or to every station goes by its EtherType: a DCP frame is taken,
and the operation in it runs; an inject frame is taken; any other frame only counts as dropped. An operation that runs past the end of its frame is
counted as bad and has no other effect. Injection (R153, R154, R397). Outside RUNNING an inject frame is only counted. One with a bad header is
dropped with INJECT_BAD at the slice it names. A good INJECT_PORT packet, in cells of the port's pool, comes to its queue's slice without a run of
ingress, and names the queue; a good INJECT_PIPE packet with a class and room enters the inject queue of its slice. -/
def Obligations.HostFramesAndInjection : Prop :=
  (
  (∀ (h : OpHdr) (ca : Word32) (s : State), s.portSt (512 + h.hp.val) = .up → h.version ≠ 0 → h.flags.toNat < 8 →
    ∃ u t : State, FrameTaken h.hp.val s u ∧ exec (.read h ca) u = .next t ∧
      exec (.dcpFrameReceive h.hp h.mac (headBytes h 2 0 4 h.epoch 0 ++ beBytes 4 ca.toNat ++ List.replicate 24 0)) s = .next t) ∧
  (∀ (h : OpHdr) (op len : Nat) (rest : List Byte) (s : State), s.portSt (512 + h.hp.val) = .up →
    5 ≤ s.boot.phase.code → s.boot.phase.code ≤ 9 → h.version ≠ 0 → rest.length < len → len < 65536 →
    ∃ t u : State, exec (.dcpFrameReceive h.hp h.mac (headBytes h op 0 len h.epoch 0 ++ rest)) s = .next t ∧ FrameTaken h.hp.val s u ∧
      Counts Reg.dcpBadFrame 1 u t ∧ SetsBit Reg.dcpEvents 4 u t ∧ SameRegsBut [Reg.dcpBadFrame, Reg.dcpEvents] u t ∧
      t = { u with regs := t.regs }) ∧
  ∀ (hp : Fin 2) (dst src type body : List Byte) (fcsOk : Bool) (s : State), s.portSt (512 + hp.val) = .up →
    dst.length = 6 → src.length = 6 → type.length = 2 →
    let frame := dst ++ src ++ type ++ body
    let mine := dst = s.macBytes (Reg.hpMacLo hp.val) (Reg.hpMacHi hp.val) ∨ dst = List.replicate 6 0xFF
    let good := fcsOk = true ∧ 60 ≤ frame.length ∧ frame.length ≤ 16444 ∧ mine
    let dcp := beNat type = bits (s.cfg Reg.dcpEtype) 31 16
    let inj := beNat type = bits (s.cfg Reg.dcpEtype) 15 0
    (good → dcp → exec (.hostFrameReceive hp frame fcsOk) s = exec (.dcpFrameReceive hp (BitVec.ofNat 48 (beNat src)) body) s) ∧
    (good → ¬dcp → inj → ∃ dt t, exec (.injectReceive hp body dt) s = .next t ∧
      exec (.hostFrameReceive hp frame fcsOk) s = .next { t with free := t.free + 1 }) ∧
    (¬(good ∧ (dcp ∨ inj)) → ∃ t, exec (.hostFrameReceive hp frame fcsOk) s = .next t ∧ Counts (Reg.hpRxDrop hp.val) 1 s t ∧
      OnlyRegs [Reg.hpRxDrop hp.val] s t)) ∧
  (
  (∀ (hp : Fin 2) (body : List Byte) (dt : Word64) (s : State), s.boot.phase ≠ .running →
    ∃ t, exec (.injectReceive hp body dt) s = .next t ∧ Counts (Reg.hpRxInj hp.val) 1 s t ∧ OnlyRegs [Reg.hpRxInj hp.val] s t) ∧
  (∀ (hp : Fin 2) (body : List Byte) (dt : Word64) (s : State), s.boot.phase = .running →
    (readInject body).known = true → (readInject body).portOk = true → (readInject body).ok (body.drop 32).length = false →
    ∃ t, exec (.injectReceive hp body dt) s = .next t ∧
      CountsCtr (0x24000 + 256 * (readInject body).sliceOf + 0x24) 1 s t ∧
      SetsBit (Reg.accEvents (readInject body).sliceOf) 4 s t ∧ Counts (Reg.hpRxInj hp.val) 1 s t ∧
      SameRegsBut [Reg.hpRxInj hp.val, Reg.accEvents (readInject body).sliceOf] s t ∧
      t = { s with
        regs := t.regs
        ctrs := t.ctrs }) ∧
  (∀ (hp : Fin 2) (body : List Byte) (dt : Word64) (s : State), s.boot.phase = .running →
    (readInject body).type = 0x10 → (readInject body).ok (body.drop 32).length = true →
    HasCells s (injPool s hp.val) ((readInject body).dest / 128) (((body.drop 32).length + 4 + 255) / 256) →
    ∃ t p, exec (.injectReceive hp body dt) s = .next t ∧
      let h := readInject body
      let sl := h.dest / 64
      t.slice sl = { s.slice sl with
        arrived := (s.slice sl).arrived ++ [p]
        hi := (t.slice sl).hi
        lo := (t.slice sl).lo } ∧ (∀ i, i ≠ sl → t.slice i = s.slice i) ∧
      p.data = body.drop 32 ∧ p.ended = true ∧ p.stream = .inject hp.val ∧ p.slice = sl ∧ p.noRun = decide (h.entry = 0xFF) ∧
      slipGet p.slip 0x00 2 = (body.drop 32).length + 4 ∧ slipGet p.slip 0x02 2 = h.inPort ∧
      slipGet p.slip 0x30 4 = 2 ^ 28 + h.dest * 2 ^ 18 + h.queue ∧ slipGet p.slip 0x40 4 = h.sa ∧
      slipByte p.slip 0x05 = 2 ∧ slipByte p.slip 0x07 = BitVec.ofNat 8 h.tcdp ∧ slipByte p.slip 0x3E = BitVec.ofNat 8 (h.entry % 64) ∧
      TookCells s t (injPool s hp.val) (h.dest / 128) (((body.drop 32).length + 4 + 255) / 256) 4 p.bufs ∧
      WroteCells s t p.bufs (body.drop 32 ++ leBytes 4 (crc32 polyEth (body.drop 32)).toNat) ∧
      Counts (Reg.hpRxInj hp.val) 1 s t ∧ (∀ j, 0x24000 ≤ j → j < 0x25000 → ctr t j = ctr s j) ∧
      t = { s with
        mem := t.mem
        slices := t.slices
        pools := t.pools
        regs := t.regs
        ctrs := t.ctrs
        nextId := t.nextId }) ∧
  ∀ (hp : Fin 2) (body : List Byte) (dt : Word64) (cls : Nat) (s : State), s.boot.phase = .running →
    (readInject body).type = 0x11 → (readInject body).ok (body.drop 32).length = true →
    HasCells s (injPool s hp.val) ((readInject body).sliceOf / 2) (((body.drop 32).length + 4 + 255) / 256) →
    (if (readInject body).flags % 2 = 1
      then (s.parse (readInject body).sliceOf (readInject body).start (body.drop 32)).cls = some cls
      else cls = (readInject body).start % 64) →
    fifoSum (s.slice (readInject body).sliceOf).inj + (128 + (min 256 (body.drop 32).length + 63) / 64 * 64) ≤ 16384 →
    ∃ t p, exec (.injectReceive hp body dt) s = .next t ∧
      let h := readInject body
      let sl := h.sliceOf
      t.slice sl = { s.slice sl with
        inj := (s.slice sl).inj ++ [p]
        hi := (t.slice sl).hi
        lo := (t.slice sl).lo } ∧ (∀ i, i ≠ sl → t.slice i = s.slice i) ∧
      p.data = body.drop 32 ∧ p.ended = true ∧ p.stream = .inject hp.val ∧ p.slice = sl ∧
      Stamped s p ((body.drop 32).length + 4) h.inPort cls 2 (injPool s hp.val) dt ∧ slipGet p.slip 0x40 4 = h.sa ∧
      TookCells s t (injPool s hp.val) (sl / 2) (((body.drop 32).length + 4 + 255) / 256) 4 p.bufs ∧
      WroteCells s t p.bufs (body.drop 32 ++ leBytes 4 (crc32 polyEth (body.drop 32)).toNat) ∧
      Counts (Reg.hpRxInj hp.val) 1 s t ∧ (∀ j, 0x24000 ≤ j → j < 0x25000 → ctr t j = ctr s j) ∧
      t = { s with
        mem := t.mem
        slices := t.slices
        pools := t.pools
        regs := t.regs
        ctrs := t.ctrs
        nextId := t.nextId })

/-- What leaves a host port, and which port that is (R338, R340, R343, R351, R352). A waiting response leaves to the station it answers, under its
header and before the terminator, in a frame of at least 60 bytes, and is kept no longer; on a port that is not UP it is discarded. Notices
are numbered in order and queued, at most 1,024, those beyond counted as lost. With failover enabled the active port moves to the other,
if that is UP, at the boundary after it left UP, or after no DCP frame came for KEEPALIVE_TICKS, and a notice names both; a write of
DCP_HOSTPORT moves it at the boundary too, and a write of DCP_NOTICE_ACK records the number. -/
def Obligations.ResponsesNoticesAndFailover : Prop :=
  (∀ (hp : Fin 2) (s : State), s.portSt (512 + hp.val) ≠ .up →
    ∃ t, exec (.dcpResponseSend hp) s = .next t ∧ (∀ r, r ∈ t.dcp.resps ↔ r ∈ s.dcp.resps ∧ r.hdr.hp ≠ hp) ∧
      t = { s with dcp := { s.dcp with resps := t.dcp.resps } }) ∧
  (∀ (r : Resp) (s : State), s.portSt (512 + r.hdr.hp.val) = .up → s.dcp.resps = [r] → s.dcp.active ≠ r.hdr.hp.val →
    (r.hdr.version = 2 ∨ r.hdr.version = 3) → r.payload.length ≤ 8192 → r.payload.length % 4 = 0 → r.etype = none →
    ∃ t f pad, exec (.dcpResponseSend r.hdr.hp) s = .next t ∧ t.out = s.out ++ [.host r.hdr.hp.val f false] ∧ 60 ≤ f.length ∧
      24 ≤ pad ∧
      f = beBytes 6 r.hdr.mac.toNat ++ s.macBytes (Reg.hpMacLo r.hdr.hp.val) (Reg.hpMacHi r.hdr.hp.val) ++
        beBytes 2 (bits (s.cfg Reg.dcpEtype) 31 16) ++
        headBytes r.hdr (if r.status = 0 then 0x80 else 0x81) r.status r.payload.length s.dcp.epoch r.detail ++ r.payload ++
        List.replicate pad 0 ∧
      t.dcp = { s.dcp with resps := [] } ∧ Counts (Reg.hpTx r.hdr.hp.val) 1 s t ∧ SameRegsBut [Reg.hpTx r.hdr.hp.val] s t ∧
      t = { s with
        dcp := t.dcp
        out := t.out
        regs := t.regs
        free := t.free }) ∧
  (∀ (hp : Fin 2) (l : List Notice) (s : State), s.portSt (512 + hp.val) = .up → s.dcp.resps = [] → s.dcp.active = hp.val → l ≠ [] →
    s.dcp.notices = l → l.length ≤ 64 → s.dcp.lostNow = 0 →
    ∃ t f, exec (.dcpResponseSend hp) s = .next t ∧ t.out = s.out ++ [.host hp.val f false] ∧
      f.take 6 = s.macBytes (Reg.hpPeerLo hp.val) (Reg.hpPeerHi hp.val) ∧ t.dcp.notices = [] ∧ t.dcp.sentLog.getLast? = l.getLast? ∧
      t.dcp.alert = true ∧ Counts (Reg.hpTx hp.val) 1 s t ∧ SameRegsBut [Reg.hpTx hp.val] s t ∧
      t = { s with
        dcp := t.dcp
        out := t.out
        regs := t.regs
        free := t.free }) ∧
  (∀ (type : BitVec 16) (body : List Byte) (dt : Word64) (s : State), (type.toNat, body.length) ∈ noticeTable →
    ∃ t, exec (.notice type body dt) s = .next t ∧
      (if s.dcp.notices.length < 1024 then
        (∃ n : Notice, t.dcp.notices = s.dcp.notices ++ [n] ∧ n.num = s.dcp.nextNum ∧ n.type = type ∧ n.body = body ∧
          n.tick = BitVec.ofNat 32 s.now ∧ n.ns = nsOf (s.oAt dt)) ∧ t.dcp.nextNum = s.dcp.nextNum + 1 ∧ t = { s with dcp := t.dcp }
      else
        t.dcp.notices = s.dcp.notices ∧ Counts Reg.dcpNoticeLost 1 s t ∧ SetsBit Reg.dcpEvents 2 s t ∧
        SameRegsBut [Reg.dcpNoticeLost, Reg.dcpEvents] s t ∧
        t = { s with
          dcp := t.dcp
          regs := t.regs })) ∧
  (∀ (hp : Fin 2) (s : State), hp.val = s.dcp.active → exec (.failover hp) s = .next s) ∧
  (∀ (hp : Fin 2) (s : State), hp.val ≠ s.dcp.active → s.portSt (512 + s.dcp.active) ≠ .up →
    ∃ t, exec (.failover hp) s = .next t ∧
      (bit (s.cfg Reg.dcpHostport) 1 = true → s.portSt (512 + (1 - s.dcp.active)) = .up → FailDue 0 s t) ∧
      (bit (s.cfg Reg.dcpHostport) 1 = false ∨ s.portSt (512 + (1 - s.dcp.active)) ≠ .up → t = s)) ∧
  (∀ s : State, bit (s.cfg Reg.dcpHostport) 1 = true → s.portSt (512 + s.dcp.active) = .up →
    s.portSt (512 + (1 - s.dcp.active)) = .up → bits (s.cfg Reg.dcpKeepalive) 15 0 ≠ 0 →
    ∃ t, exec .keepaliveExpire s = .next t ∧
      (∀ n, (s.hp s.dcp.active).lastDcp = some n → s.now < n + bits (s.cfg Reg.dcpKeepalive) 15 0 → t = s) ∧
      ((∀ n, (s.hp s.dcp.active).lastDcp = some n → n + bits (s.cfg Reg.dcpKeepalive) 15 0 ≤ s.now) → FailDue 1 s t)) ∧
  (∀ (c : Nat) (s : State), s.dcp.active < 2 → s.dcp.notices.length < 1024 →
    (∀ k, s.portSt (512 + s.dcp.active) ≠ .up → k < 8 → SMap.find [] s.tm.hostQ (8 * s.dcp.active + k) = []) →
    (if c = 2 then s.dcp.activeTo = some (1 - s.dcp.active)
      else s.dcp.activeTo = none ∧ s.dcp.failTo = some c ∧ s.portSt (512 + (1 - s.dcp.active)) = .up) →
    FailedOver s.dcp.active c s s.hostTick ∧ s.hostTick.dcp.activeTo = none ∧ s.hostTick.dcp.failTo = none) ∧
  (∀ (v : Word32) (s : State),
    ∃ t, exec (.dcpHostportWrite v) s = .next t ∧ t.dcp = { s.dcp with activeTo := some (if bit v 0 then 1 else 0) } ∧
      (∀ n, n < 2 → bit (t.reg Reg.dcpHostport) n = bit v n) ∧ SameRegsBut [Reg.dcpHostport] s t ∧
      t = { s with
        dcp := t.dcp
        regs := t.regs
        wideHeld := t.wideHeld }) ∧
  ∀ (v : Word32) (s : State),
    ∃ t, exec (.dcpNoticeAckWrite v) s = .next t ∧ t.reg Reg.dcpNoticeAck = v ∧ SameRegsBut [Reg.dcpNoticeAck] s t ∧
      (s.dcp.notices ≠ [] → t.dcp.alert = true) ∧ t.dcp = { s.dcp with alert := t.dcp.alert } ∧
      t = { s with
        dcp := t.dcp
        regs := t.regs
        wideHeld := t.wideHeld }

namespace Sys2Proof.Spec

open Sys2Proof.Machine

/-! ### Circulation and the Stacks (chapter 7) -/

/-- The outcome of a free, coded as CIRC_HOST_FREE_RESULT codes it (R201, R202, R203). -/
def freeCode (s : State) (p n cls : Nat) : Nat :=
  if s.poolCount p = 0 then 5
  else if s.inPool p n = false then 4
  else if s.poolRa p = true then (if s.poolCount p ≤ s.poolFree p then 6 else 1)
  else if bit (s.bufWord p n) 4 = false then 2
  else if bits (s.bufWord p n) 3 0 ≠ cls then 3
  else 1

/-- The columns of Table 7.7 for an outcome: pool counter register, device counter, event and notice. -/
def freeTold : Nat → Nat × Nat × Nat × Option Nat
  | 2 => (3, 4, 1, some 0x10)
  | 3 => (4, 5, 2, some 0x11)
  | 6 => (7, 8, 4, none)
  | _ => (5, 6, 3, some 0x12)

/-- A free has had its outcome: a buffer given back is no longer allocated and stands in the ring, for the host, or at the head of a
cache; any other free is counted and told, and moves no buffer. A page on an unmapped port is withdrawn. -/
def FreeDone (p n cls quad : Nat) (host : Bool) (s t : State) : Prop :=
  if freeCode s p n cls = 1 then
    let back := s.bufUsable p n = true
    let slot := s.ringSlot p ((s.pool p).head + (s.pool p).count)
    (∀ m, t.bufWord p m = if m = n ∧ s.poolRa p = false ∧ WordUp s p n then 0 else s.bufWord p m) ∧
    CountsCtr (0x26000 + 16 * p + 1) 1 s t ∧ (∀ i, i ≠ p → t.pool i = s.pool i) ∧
    (t.pool p).head = (s.pool p).head ∧ (t.pool p).next = (s.pool p).next ∧ (t.pool p).bursts = (s.pool p).bursts ∧
    (t.pool p).count = (s.pool p).count + (if host = true ∧ back then 1 else 0) ∧
    (∀ q, (t.pool p).cache q = if host = false ∧ back ∧ q = quad then n :: (s.pool p).cache q else (s.pool p).cache q) ∧
    (host = true → back → s.ringUp p ((s.pool p).head + (s.pool p).count) = true → (s.pool p).count < s.poolCount p →
      t.ringOf p = s.ringOf p ++ [n % 2 ^ 32]) ∧
    (¬(host = true ∧ back) → t.ringOf p = s.ringOf p) ∧
    (∀ a, a ≠ s.wordAddr p n → ¬(host = true ∧ slot ≤ a ∧ a < slot + 4) → memRead t.mem a = memRead s.mem a) ∧
    (s.poolKind p < 2 → host = false → SameMem s t) ∧
    t.reg Reg.circEvents = s.reg Reg.circEvents
  else
    let told := freeTold (freeCode s p n cls)
    t.pools = s.pools ∧ SameMem s t ∧ Counts (Reg.circPoolCnt p told.1) 1 s t ∧ CountsCtr (0x26000 + 16 * p + told.2.1) 1 s t ∧
    SetsBit Reg.circEvents told.2.2.1 s t ∧
    (∀ type, told.2.2.2 = some type → s.dcp.notices.length < 1024 →
      ∃ x : Notice, t.dcp.notices = s.dcp.notices ++ [x] ∧ x.type.toNat = type ∧
        x.body = [BitVec.ofNat 8 p, BitVec.ofNat 8 cls, 0, 0] ++ beBytes 4 n)

/-- The registers that a free may change. -/
def freeRegs (p : Nat) : List Nat :=
  [Reg.circPoolCnt p 3, Reg.circPoolCnt p 4, Reg.circPoolCnt p 5, Reg.circPoolCnt p 7, Reg.circEvents, Reg.dcpNoticeLost, Reg.dcpEvents]

/-- The owner class of a requester (Table 7.3). -/
def ownerClass : Requester → Nat
  | .ingress => 0
  | .page => 6
  | .added c => c.val
  | .replication => 1
  | .mirror => 5
  | .recall => 2
  | .scratch => 3
  | .host => 4

/-- A present pool serves a requester: scratch any kind, a shelving page a page pool, all others a CELL pool (R192). -/
def Serving (s : State) (who : Requester) (p : Nat) : Prop :=
  s.poolCount p ≠ 0 ∧ match who with
    | .scratch => True
    | .page => 2 ≤ s.poolKind p
    | _ => s.poolKind p = 0

/-- Memory outside the state words of some buffers of a pool is as before. -/
def MemButWords (p : Nat) (bs : List Buf) (s t : State) : Prop :=
  ∀ a, (∀ b ∈ bs, s.wordAddr p b.num ≠ a) → memRead t.mem a = memRead s.mem a

/-- The registers that tell a shortfall. -/
def shortRegs (p : Nat) : List Nat := [Reg.circPoolCnt p 0, Reg.circPoolCnt p 2, Reg.circEvents, Reg.circPoolLow p]

/-- A queue that shelves holds a full page of tail cells, and nothing pauses it (R210). -/
structure PageFull (s : State) (q pool n : Nat) : Prop where
  en     : bit (s.shelveA q) 31 = true
  pool'  : pool = bits (s.shelveA q) 23 20
  size   : n = if s.poolKind pool = 2 then 8 else 64
  kind   : 2 ≤ s.poolKind pool
  count  : s.poolCount pool ≠ 0
  shelv  : (s.queue q).shelv = true
  run    : s.gddr.paused = false
  full   : n ≤ (s.queue q).tail

/-- Of the traffic manager only the queues changed. -/
def OnlyQueue (q : Nat) (s t : State) : Prop :=
  (∀ i, i ≠ q → t.queue i = s.queue i) ∧
  t = { s with
    mem := t.mem
    tm := { s.tm with queues := t.tm.queues }
    pools := t.pools
    regs := t.regs
    ctrs := t.ctrs
    dcp := t.dcp
    free := t.free }

end Sys2Proof.Spec

/-- Requests, refills and spills (R195, R196, R197, R198, R201). A request takes its buffers from the head of its quadrant's cache and records their
owner class; a shortfall is counted and passed to the fallback pool, which serves it. With no fallback an empty cache gives none; a scratch request is
served what there is; packet cells that fall short go back, free again. A refill puts the oldest entries of the ring, or else the next unissued
buffers, in front of the cache. A cache over its mark gives 64 entries to the ring. Frees (R199, R201, R202, R203, Table 7.7). A free is judged
against its pool and its state word: it gives the buffer back, or is counted and told as double, foreign, bad or one too many. Where the state word
lies in the Stacks the outcome waits for its read. The host's free does the same with the ring, clears GO and answers its outcome; while GO reads 1 a
write has no effect. -/
def Obligations.BuffersAreServedAndFreed : Prop :=
  (
  (∀ (who : Requester) (pool : Fin 16) (quad : Fin 4) (n : Nat) (s : State), 0 < n → n ≤ (if who = .scratch then 512 else 16) →
    Serving s who pool.val → n ≤ ((s.pool pool.val).cache quad.val).length →
    ∃ t bs, exec (.bufferRequest who pool quad n) s = .next t ∧
      TookCells s t pool.val quad.val n (ownerClass who) bs ∧ MemButWords pool.val bs s t ∧
      CountsCtr (0x26000 + 16 * pool.val) n s t ∧ SameRegsBut [Reg.circPoolLow pool.val] s t ∧
      t = { s with
        mem := t.mem
        pools := t.pools
        regs := t.regs
        ctrs := t.ctrs }) ∧
  (∀ (who : Requester) (pool : Fin 16) (f : Nat) (quad : Fin 4) (n : Nat) (s : State), 0 < n →
    n ≤ (if who = .scratch then 512 else 16) → (s.pool pool.val).cache quad.val = [] → s.poolFallback pool.val = some f →
    f ≠ pool.val → Serving s who f → n ≤ ((s.pool f).cache quad.val).length →
    ∃ t bs, exec (.bufferRequest who pool quad n) s = .next t ∧ TookCells s t f quad.val n (ownerClass who) bs ∧
      MemButWords f bs s t ∧ Counts (Reg.circPoolCnt pool.val 0) 1 s t ∧ Counts (Reg.circPoolCnt f 1) 1 s t ∧
      SameRegsBut (Reg.circPoolCnt f 1 :: Reg.circPoolLow f :: shortRegs pool.val) s t ∧
      t = { s with
        mem := t.mem
        pools := t.pools
        regs := t.regs
        ctrs := t.ctrs }) ∧
  (∀ (who : Requester) (pool : Fin 16) (quad : Fin 4) (n : Nat) (s : State), 0 < n → n ≤ (if who = .scratch then 512 else 16) →
    (s.pool pool.val).cache quad.val = [] → s.poolFallback pool.val = none →
    ∃ t, exec (.bufferRequest who pool quad n) s = .next t ∧ Counts (Reg.circPoolCnt pool.val 0) 1 s t ∧
      ctr t (0x26000 + 16 * pool.val + 2) = ctr s (0x26000 + 16 * pool.val + 2) + 1 ∧ SameRegsBut (shortRegs pool.val) s t ∧
      t = { s with
        regs := t.regs
        ctrs := t.ctrs }) ∧
  (∀ (pool : Fin 16) (quad : Fin 4) (n : Nat) (s : State), n ≤ 512 → Serving s .scratch pool.val →
    ((s.pool pool.val).cache quad.val).length < n → s.poolFallback pool.val = none →
    ∃ t bs, exec (.bufferRequest .scratch pool quad n) s = .next t ∧
      TookCells s t pool.val quad.val ((s.pool pool.val).cache quad.val).length 3 bs ∧ MemButWords pool.val bs s t ∧
      Counts (Reg.circPoolCnt pool.val 0) 1 s t ∧ SameRegsBut (shortRegs pool.val) s t ∧
      t = { s with
        mem := t.mem
        pools := t.pools
        regs := t.regs
        ctrs := t.ctrs }) ∧
  (∀ (who : Requester) (pool : Fin 16) (quad : Fin 4) (n : Nat) (s : State), who ≠ .scratch → who ≠ .page → n ≤ 16 →
    Serving s who pool.val → s.poolRa pool.val = false → s.poolFallback pool.val = none →
    let c := (s.pool pool.val).cache quad.val
    c.length < n → c.Nodup → (∀ b ∈ c, s.inPool pool.val b = true) →
    ∃ t, exec (.bufferRequest who pool quad n) s = .next t ∧ SameRing pool.val s t ∧
      (∀ q, (t.pool pool.val).cache q = if q = quad.val then c.reverse else (s.pool pool.val).cache q) ∧
      (∀ i, i ≠ pool.val → t.pool i = s.pool i) ∧
      (∀ m, t.bufWord pool.val m = if m ∈ c then 0 else s.bufWord pool.val m) ∧
      Counts (Reg.circPoolCnt pool.val 0) 1 s t ∧ SameRegsBut (shortRegs pool.val) s t ∧
      t = { s with
        pools := t.pools
        regs := t.regs
        ctrs := t.ctrs }) ∧
  (∀ (pool : Fin 16) (quad : Fin 4) (s : State), quad.val ∈ (s.pool pool.val).bursts → s.poolKind pool.val < 2 →
    ∃ t l, exec (.cacheRefillArrive pool quad) s = .next t ∧
      (64 ≤ (s.pool pool.val).count → l = (s.ringOf pool.val).take 64 ∧ t.ringOf pool.val = (s.ringOf pool.val).drop 64 ∧
        (t.pool pool.val).next = (s.pool pool.val).next) ∧
      ((s.pool pool.val).count = 0 → (s.pool pool.val).next + 64 ≤ s.poolCount pool.val →
        l = (List.range 64).map (fun i => s.poolFirst pool.val + 4 * ((s.pool pool.val).next + i)) ∧
        (t.pool pool.val).count = 0 ∧ (t.pool pool.val).next = (s.pool pool.val).next + 64) ∧
      (∀ q, (t.pool pool.val).cache q = if q = quad.val then l ++ (s.pool pool.val).cache q else (s.pool pool.val).cache q) ∧
      (t.pool pool.val).bursts = (s.pool pool.val).bursts.erase quad.val ∧ (t.pool pool.val).words = (s.pool pool.val).words ∧
      (∀ i, i ≠ pool.val → t.pool i = s.pool i) ∧
      t = { s with
        pools := t.pools
        free := t.free }) ∧
  ∀ (pool : Fin 16) (quad : Fin 4) (s : State), 3584 < ((s.pool pool.val).cache quad.val).length →
    ∃ t a b c, exec (.cacheSpill pool quad) s = .next t ∧ (s.pool pool.val).cache quad.val = a ++ b ++ c ∧ b.length = 64 ∧
      (∀ q, (t.pool pool.val).cache q = if q = quad.val then a ++ c else (s.pool pool.val).cache q) ∧
      (t.pool pool.val).count = (s.pool pool.val).count + 64 ∧
      (s.poolKind pool.val < 2 → (s.pool pool.val).count + 64 ≤ s.poolCount pool.val →
        t.ringOf pool.val = s.ringOf pool.val ++ b.reverse.map (fun n => n % 2 ^ 32)) ∧
      (t.pool pool.val).head = (s.pool pool.val).head ∧ (t.pool pool.val).next = (s.pool pool.val).next ∧
      (t.pool pool.val).words = (s.pool pool.val).words ∧ (∀ i, i ≠ pool.val → t.pool i = s.pool i) ∧
      (∀ a, (∀ j, a < s.ringSlot pool.val j ∨ s.ringSlot pool.val j + 4 ≤ a) → memRead t.mem a = memRead s.mem a) ∧
      t = { s with
        mem := t.mem
        pools := t.pools
        free := t.free }) ∧
  (
  (∀ (pool : Fin 16) (quad : Fin 4) (num : Word32) (cls : BitVec 4) (s : State),
    ∃ t, exec (.bufferFree pool quad num cls) s = .next t ∧
      (2 ≤ s.poolKind pool.val → s.poolRa pool.val = false → s.inPool pool.val num.toNat = true →
        t = { s with freeChk := s.freeChk ++ [⟨pool.val, num.toNat, cls.toNat, quad.val, false⟩] }) ∧
      (¬(2 ≤ s.poolKind pool.val ∧ s.poolRa pool.val = false ∧ s.inPool pool.val num.toNat = true) →
        FreeDone pool.val num.toNat cls.toNat quad.val false s t ∧ SameRegsBut (freeRegs pool.val) s t ∧
        t = { s with
          mem := t.mem
          pools := t.pools
          regs := t.regs
          ctrs := t.ctrs
          dcp := t.dcp
          free := t.free })) ∧
  (∀ (f : FreeChk) (l : List FreeChk) (s : State), s.freeChk = f :: l →
    ∃ t, exec .stateWordCheckDone s = .next t ∧ FreeDone f.pool f.num f.cls f.quad f.host s t ∧ t.freeChk = l ∧
      (f.host = true → t.reg Reg.circHostFreeResult = BitVec.ofNat 32 (freeCode s f.pool f.num f.cls) ∧
        bit (t.reg Reg.circHostFreeCmd) 31 = false) ∧
      SameRegsBut (freeRegs f.pool ++ if f.host then [Reg.circHostFreeCmd, Reg.circHostFreeResult] else []) s t ∧
      (f.host = false → t.dp = s.dp) ∧
      t = { s with
        freeChk := t.freeChk
        dp := t.dp
        mem := t.mem
        pools := t.pools
        regs := t.regs
        ctrs := t.ctrs
        dcp := t.dcp
        free := t.free }) ∧
  (∀ (v : Word32) (s : State), bit (s.reg Reg.circHostFreeCmd) 31 = true → exec (.circHostFree v) s = .next s) ∧
  (∀ (v : Word32) (s : State), bit (s.reg Reg.circHostFreeCmd) 31 = false → bit v 31 = true →
    s.poolCount (bits v 3 0) ≠ 0 → 2 ≤ s.poolKind (bits v 3 0) → s.poolRa (bits v 3 0) = false →
    s.inPool (bits v 3 0) (s.reg Reg.circHostFreeNum).toNat = true →
    ∃ t, exec (.circHostFree v) s = .next t ∧
      t.freeChk = s.freeChk ++ [⟨bits v 3 0, (s.reg Reg.circHostFreeNum).toNat, bits v 11 8, 0, true⟩] ∧
      bit (t.reg Reg.circHostFreeCmd) 31 = true ∧ SameRegsBut [Reg.circHostFreeCmd] s t ∧
      t = { s with
        regs := t.regs
        freeChk := t.freeChk }) ∧
  ∀ (v : Word32) (s : State), bit (s.reg Reg.circHostFreeCmd) 31 = false → bit v 31 = true →
    let p := bits v 3 0
    let n := (s.reg Reg.circHostFreeNum).toNat
    (s.poolKind p < 2 ∨ s.poolRa p = true) →
    ∃ t, exec (.circHostFree v) s = .next t ∧ (s.poolCount p ≠ 0 → FreeDone p n (bits v 11 8) 0 true s t) ∧
      (s.poolCount p = 0 → t.pools = s.pools ∧ SameMem s t) ∧
      t.reg Reg.circHostFreeResult = BitVec.ofNat 32 (freeCode s p n (bits v 11 8)) ∧ bit (t.reg Reg.circHostFreeCmd) 31 = false ∧
      SameRegsBut (freeRegs p ++ [Reg.circHostFreeCmd, Reg.circHostFreeResult]) s t ∧
      t = { s with
        mem := t.mem
        pools := t.pools
        regs := t.regs
        dp := t.dp
        ctrs := t.ctrs
        dcp := t.dcp
        free := t.free })

/-- Shelving and recall (R210, R211, R212, R213). A shelving queue with a full page of tail cells takes a page and moves them to it; without a
page its tail stays and the request is retried. A page that has been read returns its cells to the head, and with the last of them the
tail joins it; one that fails is counted, and every packet with a cell in it is to be dropped. The packets of the queue keep their order, and no other queue changes. -/
def Obligations.ShelvingAndRecallKeepTheOrder : Prop :=
  (∀ (again : Bool) (q pool n b : Nat) (rest : List Nat) (s : State), PageFull s q pool n → (s.queue q).retry = again →
    (s.pool pool).cache (q / 65536) = b :: rest →
    ∃ t, exec (if again then .pageRequestRetry q else .shelvePage q) s = .next t ∧
      (t.queue q).tail = (s.queue q).tail - n ∧ (t.queue q).head = (s.queue q).head ∧ (t.queue q).shelv = true ∧
      (t.queue q).retry = false ∧ (t.queue q).depth = (s.queue q).depth ∧
      (t.queue q).pages.map (fun x => (x.buf, x.cells)) = (s.queue q).pages.map (fun x => (x.buf, x.cells)) ++ [(⟨pool, b⟩, n)] ∧
      (t.queue q).pkts.map (fun p => (p.data, p.bad)) = (s.queue q).pkts.map (fun p => (p.data, p.bad)) ∧ OnlyQueue q s t) ∧
  (∀ (again : Bool) (q pool n : Nat) (s : State), PageFull s q pool n → (s.queue q).retry = again →
    (s.pool pool).cache (q / 65536) = [] → s.poolFallback pool = none →
    ∃ t, exec (if again then .pageRequestRetry q else .shelvePage q) s = .next t ∧ 
      t.queue q = { s.queue q with
        retry := true
        hi := (t.queue q).hi
        lo := (t.queue q).lo } ∧
      Counts (Reg.circPoolCnt pool 0) 1 s t ∧ OnlyQueue q s t) ∧
  ∀ (q : Nat) (bad : Bool) (pg : Page) (rest : List Page) (s : State), (s.queue q).pages = pg :: rest → pg.recalling = true →
    s.gddr.paused = false →
    ∃ t, exec (.recallComplete q bad) s = .next t ∧
      let joins := (s.queue q).shelv = true ∧ rest = []
      (t.queue q).head = (s.queue q).head + pg.cells + (if joins then (s.queue q).tail else 0) ∧
      (t.queue q).tail = (if joins then 0 else (s.queue q).tail) ∧ (t.queue q).shelv = ((s.queue q).shelv && decide (rest ≠ [])) ∧
      (t.queue q).pages.map (fun x => (x.buf, x.cells, x.lost)) = rest.map (fun x => (x.buf, x.cells, x.lost)) ∧
      (t.queue q).pkts.map (fun p => p.data) = (s.queue q).pkts.map (fun p => p.data) ∧
      ((bad = true ∨ pg.lost = true) → ∀ (i : Nat) (a : Nat × Pkt), (placed (s.queue q).pkts)[i]? = some a →
        overlap a.1 (a.1 + a.2.cells) (s.queue q).head ((s.queue q).head + pg.cells) ≠ 0 →
        ∃ p, (t.queue q).pkts[i]? = some p ∧ p.bad.isSome = true) ∧
      (bad = true → pg.lost = false → Counts (Reg.gdPageCrcCnt (pagePort pg.buf.num)) 1 s t) ∧ OnlyQueue q s t

/-- The memory ports of the Stacks (R207, R208, R209). An EDC failure that a retry recovers is only counted; an uncorrectable one is counted
and kept, and loses what its transfer carried. A port with too many, one that stopped answering, one the host unmaps (at the boundary
after its write), and one that cannot be retrained is lost: it is UNMAPPED, its outstanding transfers fail, shelving pauses, and Vigil
records it. Its stripes move to spare ones on mapped ports, or
SPARE_SHORT is set, and a notice goes out; then its shelved pages are marked lost. Retraining ends with each port SERVING or UNMAPPED. -/
def Obligations.MemoryPortsFailAndRetrain : Prop :=
  (∀ (g : Fin 24) (what : Transfer) (s : State), s.gdMapped g.val = true →
    (∃ t, exec (.edcFailure g true what) s = .next t ∧ Counts (Reg.gdRetryCnt g.val) 1 s t ∧ OnlyRegs [Reg.gdRetryCnt g.val] s t) ∧
    ∃ t, exec (.edcFailure g false what) s = .next t ∧ Counts (Reg.gdUncorrCnt g.val) 1 s t ∧
      s.now ∈ SMap.find [] t.gddr.uncorr g.val ∧
      (what = .hostRead → t.gddr.readFail = s.gddr.readFail ++ [g.val]) ∧
      (what = .recall → ∀ x, s.tm.queues.find? (fun y => y.2.pages.any (fun p =>
          p.recalling && pagePort p.buf.num == g.val && !p.lost)) = some x →
        ∃ p ∈ (t.queue x.1).pages, p.lost = true ∧ pagePort p.buf.num = g.val) ∧
      (what ≠ .post → SameRegsBut [Reg.gdUncorrCnt g.val] s t) ∧ SameMem s t ∧
      t = { s with
        gddr := t.gddr
        regs := t.regs
        tm := { s.tm with queues := t.tm.queues } }) ∧
  (∀ (g : Fin 24) (how : Nat) (s : State), s.gdMapped g.val = true → how < 2 →
    (how = 1 → bits (s.cfg (Reg.gdLimit g.val)) 15 8 ≠ 0 ∧ bits (s.cfg (Reg.gdLimit g.val)) 15 8 ≤
      ((SMap.find [] s.gddr.uncorr g.val).filter (fun x => decide (s.now < x + 65536))).length) →
    ∃ t, exec (.gddrPortLost g (decide (how = 0))) s = .next t ∧
      t.gdState g.val = 4 ∧ (∀ i, i < 24 → i ≠ g.val → t.gdState i = s.gdState i) ∧ t.gddr.paused = true ∧
      t.gddr.remapping = s.gddr.remapping ++ [g.val] ∧ t.gddr.marking = s.gddr.marking ++ [g.val] ∧
      (∀ w ∈ t.gddr.posts, s.stripePort (w.addr / 16384) ≠ g.val) ∧
      (∀ q, ∀ p ∈ (t.queue q).pages, p.recalling = true → pagePort p.buf.num = g.val → p.lost = true) ∧
      (∃ e, t.vigil.log.getLast? = some e ∧ e.event = 0x0020 ∧ e.object.toNat = g.val) ∧ bit t.vigil.reasons 2 = true ∧ SameMem s t) ∧
  (∀ (g : Fin 24) (s : State),
    ∃ t u, exec (.unmap g) s = .next t ∧ SetsBit (Reg.gdCtl g.val) 1 s t ∧ OnlyRegs [Reg.gdCtl g.val] s t ∧
      (s.gdMapped g.val = true → exec (.gddrPortLost g true) s = .next u ∧
        (bit (s.cfg (Reg.gdCtl g.val)) 1 = true → bit (s.cfg (Reg.gdCtl g.val)) 0 = false → s.gdCtlTick g.val = u))) ∧
  (∀ (g : Fin 24) (s : State), g.val ∈ s.gddr.remapping → s.dcp.notices.length < 1024 →
    ∃ t, exec (.remapDone g) s = .next t ∧ t.gddr.remapping = s.gddr.remapping.erase g.val ∧
      bit (t.reg (Reg.stkEvents (g.val / 6))) 2 = true ∧
      (∃ n : Notice, t.dcp.notices = s.dcp.notices ++ [n] ∧ n.type = 0x0022 ∧ n.body = [BitVec.ofNat 8 g.val, 0, 0, 0]) ∧
      (∀ x ∈ s.regionStripes (fun r => s.cfgB (Reg.circRegionA r) 28), s.stripePort x = g.val →
        (SMap.find 0 t.gddr.remap x = 0 ∧ bit (t.reg (Reg.stkEvents (g.val / 6))) 1 = true) ∨
        s.gdMapped ((SMap.find 0 t.gddr.remap x - 1) % 24) = true) ∧
      (∀ i, i < 24 → t.gdState i = s.gdState i)) ∧
  (∀ (g : Fin 24) (s : State), g.val ∈ s.gddr.marking → g.val ∉ s.gddr.remapping →
    ∃ t, exec (.lostPagesMarked g) s = .next t ∧ t.gddr.marking = s.gddr.marking.erase g.val ∧
      (t.gddr.paused = true ↔ s.gddr.marking.erase g.val ≠ []) ∧
      (∀ q, ∀ p ∈ (t.queue q).pages, pagePort p.buf.num = g.val → p.lost = true) ∧ SameMem s t ∧
      t = { s with
        gddr := t.gddr
        tm := { s.tm with queues := t.tm.queues } }) ∧
  (∀ (g : Fin 24) (s : State),
    ∃ t, exec (.retrain g) s = .next t ∧ SetsBit (Reg.gdCtl g.val) 0 s t ∧ OnlyRegs [Reg.gdCtl g.val] s t ∧
      (bit (s.cfg (Reg.gdCtl g.val)) 1 = false → bit (s.cfg (Reg.gdCtl g.val)) 0 = true → s.gdState g.val = 2 →
        (s.gdCtlTick g.val).gdState g.val = 3 ∧ OnlyRegs [Reg.gdStatus g.val] s (s.gdCtlTick g.val))) ∧
  (∀ (g : Fin 24) (r : BitVec 8) (s : State), s.gdState g.val = 3 →
    ∃ t, exec (.gddrRetrainDone g r) s = .next t ∧ bits (t.reg (Reg.gdStatus g.val)) 15 8 = r.toNat ∧
      bit (t.reg (Reg.gdCtl g.val)) 0 = false ∧ t.gdState g.val = (if r = 1 then 2 else 4) ∧
      (∀ i, i < 24 → i ≠ g.val → t.gdState i = s.gdState i) ∧ (r ≠ 1 → t.gddr.paused = true) ∧ SameMem s t) ∧
  (∀ (q : Fin 4) (s : State),
    ∃ t, exec (.retrainAll q) s = .next t ∧ (s.boot.phase = .running → t = s) ∧
      (s.boot.phase ≠ .running → SetsBit (Reg.stkCtl q.val) 0 s t) ∧ OnlyRegs [Reg.stkCtl q.val] s t ∧
      (bit (s.cfg (Reg.stkCtl q.val)) 0 = true → q.val ∉ s.gddr.training →
        (∀ i, i < 24 → (s.retrainAllTick q.val).gdState i = if i / 6 = q.val ∧ s.gdState i ≠ 4 then 1 else s.gdState i) ∧
        (s.retrainAllTick q.val).gddr.training = s.gddr.training ++ [q.val])) ∧
  ∀ (q : Fin 4) (rs : List (BitVec 8)) (s : State), q.val ∈ s.gddr.training →
    ∃ t, exec (.trainDone q rs) s = .next t ∧ bit (t.reg (Reg.stkCtl q.val)) 0 = false ∧ bit (t.reg (Reg.stkEvents q.val)) 0 = true ∧
      (∀ i, i < 24 → t.gdState i =
        if i / 6 = q.val ∧ s.gdState i = 1 then (if (rs.getD (i % 6) 0).toNat = 1 then 2 else 4) else s.gdState i) ∧
      (∀ i, i < 24 → i / 6 = q.val → s.gdState i = 1 → bits (t.reg (Reg.gdStatus i)) 15 8 = (rs.getD (i % 6) 0).toNat) ∧
      q.val ∉ t.gddr.training ∧
      SameRegsBut (Reg.stkCtl q.val :: Reg.stkEvents q.val :: (List.range 24).map Reg.gdStatus) s t ∧
      t = { s with
        mem := t.mem
        gddr := t.gddr
        regs := t.regs
        dp := t.dp }

namespace Sys2Proof.Spec

open Sys2Proof.Machine

/-! ### The Catalogue (chapter 6) -/

/-- The bytes of an entry of an EXACT table in a unit of a wing hold the number v, and every other byte of device memory is as before. -/
def EntryBecomes (e : DirEntry) (w u slot v : Nat) (s t : State) : Prop :=
  t.exactEntry e w u slot = v ∧
  ∀ a, ¬(unitAddr w u + slot * dirEsize e ≤ a ∧ a < unitAddr w u + slot * dirEsize e + dirEsize e) → memRead t.mem a = memRead s.mem a

/-- What a visit of the sweeper makes of an EXACT entry (R180): H is cleared, or A is set where H was clear, or the entry goes. -/
def agedEntry (n : Nat) : Nat :=
  if n % 2 = 0 ∨ n / 2 % 2 = 1 then n
  else if n / 4 % 2 = 1 then n - n % 16 + n % 4
  else if n / 8 % 2 = 0 then n + 8
  else n - 1

/-- A learn request stands first in its wing's queue, no retry waits, and its table is a per-slice EXACT table that learns, none of whose
candidate buckets for the key is locked (R174, R175). -/
structure Learns (s : State) (w : Nat) (r : Learn) (q : List Learn) : Prop where
  turn  : (s.wing w).attempts < 64
  retry : (s.wing w).retry = []
  queue : (s.wing w).learnQ = r :: q
  valid : dirValid (s.dirLive (w / 2) r.table) = true
  exact : dirKind (s.dirLive (w / 2) r.table) = 0
  own   : dirRepl (s.dirLive (w / 2) r.table) = false
  learn : dirLearn (s.dirLive (w / 2) r.table) = true

/-- After an attempt of the learn engine: the request has left the queue, and the attempt is counted. -/
def Attempted (w : Nat) (q retry : List Learn) (s t : State) : Prop :=
  t.wing w = { s.wing w with
    learnQ := q
    retry := retry
    attempts := (s.wing w).attempts + 1 } ∧ ∀ i, i ≠ w → t.wing i = s.wing i

end Sys2Proof.Spec

/-- Learning and aging (R165, R174 to R180). A request whose key stands nowhere is written into the lowest free slot of its first bucket, with
V and H; one whose key stands with another result replaces it, where the entry is neither static nor frozen; one that meets a locked bucket
waits in the retry list, and is discarded after eight failures. A freeze ends when its time has run. The sweeper visits a unit slot by
slot, not before its turn in an even spread over the period (log 100, DESIGN CHOICE): H cleared, A set, or the entry removed and
counted; it skips a locked unit, and notes when its period has passed. -/
def Obligations.CatalogueLearnsAndAges : Prop :=
  (∀ (w : Fin 8) (dt : Word64) (r : Learn) (q : List Learn) (b : Nat × Nat) (bs : List (Nat × Nat)) (sl : Nat) (s : State),
    Learns s w.val r q →
    let e := s.dirLive (w.val / 2) r.table
    exactBuckets e w.val r.key = b :: bs → (∀ x ∈ b :: bs, s.unitLocked x.1 x.2 = false) → s.unitDead b.1 b.2 = false →
    s.exactFind e (b :: bs) r.key = none → sl < 64 / dirEsize e → s.exactEntry e b.1 b.2 sl % 2 = 0 →
    (∀ i, i < sl → s.exactEntry e b.1 b.2 i % 2 = 1) →
    ∃ t, exec (.learnEngineAttempt w dt) s = .next t ∧
      EntryBecomes e w.val b.2 sl ((5 + 2 ^ 16 * (r.key % 2 ^ dirKeyW e) + 2 ^ (16 + 8 * ((dirKeyW e + 7) / 8)) * (r.res % 2 ^ dirResW e)) %
        256 ^ dirEsize e) s t ∧
      Attempted w.val q [] s t ∧ Counts (Reg.catCnt w.val 3) 1 s t ∧
      t = { s with
        mem := t.mem
        wings := t.wings
        regs := t.regs
        dcp := t.dcp }) ∧
  (∀ (w : Fin 8) (dt : Word64) (r : Learn) (q : List Learn) (x : Nat × Nat × Nat) (s : State), Learns s w.val r q →
    let e := s.dirLive (w.val / 2) r.table
    let n := s.exactEntry e x.1 x.2.1 x.2.2
    (∀ b ∈ exactBuckets e w.val r.key, s.unitLocked b.1 b.2 = false) → s.unitDead x.1 x.2.1 = false →
    s.exactFind e (exactBuckets e w.val r.key) r.key = some x → n / 2 % 2 = 0 → exactRes e n ≠ r.res →
    (∀ m ∈ (s.wing w.val).frozen, m.table = r.table → m.key = r.key → m.tick ≤ s.now) → bits (s.cfg (Reg.catFlap w.val)) 27 24 = 0 →
    ∃ t, exec (.learnEngineAttempt w dt) s = .next t ∧
      EntryBecomes e w.val x.2.1 x.2.2 (exactMake e false r.key r.res % 256 ^ dirEsize e) s t ∧ Attempted w.val q [] s t ∧
      Counts (Reg.catCnt w.val 4) 1 s t ∧
      t = { s with
        mem := t.mem
        wings := t.wings
        regs := t.regs
        dcp := t.dcp }) ∧
  (∀ (w : Fin 8) (dt : Word64) (r : Learn) (q : List Learn) (b : Nat × Nat) (s : State), Learns s w.val r q →
    b ∈ exactBuckets (s.dirLive (w.val / 2) r.table) w.val r.key → s.unitLocked b.1 b.2 = true →
    ∃ t, exec (.learnEngineAttempt w dt) s = .next t ∧
      Attempted w.val q [{ r with
        fails := 0
        tick := s.now }] s t ∧ t = { s with wings := t.wings }) ∧
  (∀ (w : Fin 8) (r : Learn) (s : State), (s.wing w.val).retry.find? (fun x => decide (8 ≤ x.fails)) = some r →
    ∃ t, exec (.learnLocked w) s = .next t ∧ (t.wing w.val).retry.length + 1 = (s.wing w.val).retry.length ∧
      (∀ x ∈ (t.wing w.val).retry, ∃ y ∈ (s.wing w.val).retry, x.table = y.table ∧ x.key = y.key ∧ x.res = y.res) ∧
      Counts (Reg.catCnt w.val 9) 1 s t ∧ SetsBit (Reg.catEvents w.val) 0 s t ∧ (∀ i, i ≠ w.val → t.wing i = s.wing i) ∧
      t = { s with
        wings := t.wings
        regs := t.regs }) ∧
  (∀ (w : Fin 8) (s : State),
    ∃ t, exec (.freezeEnd w) s = .next t ∧ (∀ m, m ∈ (t.wing w.val).frozen ↔ m ∈ (s.wing w.val).frozen ∧ s.now < m.tick) ∧
      (∀ i, i ≠ w.val → t.wing i = s.wing i) ∧ t = { s with wings := t.wings }) ∧
  (∀ (w : Fin 8) (unit table : Nat) (e : DirEntry) (dt : Word64) (s : State), bits (s.cfg (Reg.catAge w.val)) 15 0 ≠ 0 →
    (s.wing w.val).sweepTick + bits (s.cfg (Reg.catAge w.val)) 15 0 * 65536 * s.sweepCount w.val unit /
      max 1 (s.sweepCount w.val (2 ^ 20)) ≤ s.now → s.sweepNext w.val (s.wing w.val).sweepAt = some unit →
    s.exactOwner w.val unit = some (table, e) → s.unitDead w.val unit = false →
    ∃ t, exec (.sweepVisit w unit dt) s = .next t ∧
      (∀ sl, sl < 64 / dirEsize e → t.exactEntry e w.val unit sl =
        if s.unitLocked w.val unit = true then s.exactEntry e w.val unit sl else agedEntry (s.exactEntry e w.val unit sl)) ∧
      (∀ a, ¬(unitAddr w.val unit ≤ a ∧ a < unitAddr w.val unit + 64) → memRead t.mem a = memRead s.mem a) ∧
      (s.unitLocked w.val unit = false → Counts (Reg.catCnt w.val 11) ((List.range (64 / dirEsize e)).filter (fun sl =>
        decide (s.exactEntry e w.val unit sl % 16 = 9))).length s t) ∧
      (t.wing w.val).sweepAt = (if s.sweepNext w.val (unit + 1) = none then 0 else unit + 1) ∧
      (s.sweepNext w.val (unit + 1) = none → (t.wing w.val).sweepTick =
        max s.now ((s.wing w.val).sweepTick + 65536 * bits (s.cfg (Reg.catAge w.val)) 15 0))) ∧
  (∀ (w : Fin 8) (s : State), (s.wing w.val).sweepNew = true →
    s.sweepEdge w.val = s.setWing w.val { s.wing w.val with
      sweepNew := false
      sweepAt := 0
      sweepLate := false
      sweepTick := s.now }) ∧
  ∀ (w : Fin 8) (s : State), bits (s.cfg (Reg.catAge w.val)) 15 0 ≠ 0 →
    (s.wing w.val).sweepTick + 65536 * bits (s.cfg (Reg.catAge w.val)) 15 0 ≤ s.now → (s.wing w.val).sweepLate = false →
    s.sweepNext w.val (s.wing w.val).sweepAt ≠ none →
    ∃ t, exec (.sweepLate w) s = .next t ∧ t.wing w.val = { s.wing w.val with sweepLate := true } ∧
      (∀ i, i ≠ w.val → t.wing i = s.wing i) ∧ SetsBit (Reg.catEvents w.val) 4 s t ∧ SameRegsBut [Reg.catEvents w.val] s t ∧
      t = { s with
        wings := t.wings
        regs := t.regs }

/-- Directory, banks, locks and repair (R137, R159, R160, R182, R415). A word-0 write that is not refused is taken for the next boundary, with
the words staged beside it, and lookups see nothing of it yet; a valid entry of a reserved kind, and an EXACT table that shares a unit
with another, are refused with their reason, and so is the retirement of a table that a valid LPM6 table names as its LONG_TABLE; nothing else is
touched. BANK_SWITCH and UNLOCK_ALL stand in their registers until the boundary, which switches the bank, or clears every lock. A unit found uncorrectable is in error
until the boundary, while repair units last; then it is lost and holds zeros. Vigil records both. -/
def Obligations.CatalogueDirectoryLocksAndRepair : Prop :=
  (∀ (pair : Fin 4) (table : BitVec 8) (v : Word32) (s : State), bit v 31 = false →
    (∀ o, o ≠ table.toNat → dirValid (s.dirView pair.val o) = true → dirKind (s.dirView pair.val o) = 2 →
      bit ((s.dirView pair.val o).getD 6 0) 31 = true →
      let l := bits ((s.dirView pair.val o).getD 6 0) 7 0
      l ≠ table.toNat ∧ dirValid (s.dirView pair.val l) = true ∧ dirKind (s.dirView pair.val l) = 3 ∧
        dirRepl (s.dirView pair.val l) = dirRepl (s.dirView pair.val o)) →
    ∃ t, exec (.catDirWord0Write pair table v) s = .next t ∧
      t.dirView pair.val table.toNat = v :: (List.range 7).map (fun i => s.reg (Reg.catDir pair.val table.toNat (i + 1))) ∧
      t.dir = s.dir ∧ t.reg (Reg.catDir pair.val table.toNat 0) = v ∧ t.reg (Reg.catDirResult pair.val) = BitVec.ofNat 32 table.toNat ∧
      SameRegsBut [Reg.catDir pair.val table.toNat 0, Reg.catDirResult pair.val] s t ∧
      t = { s with
        regs := t.regs
        dirNext := t.dirNext }) ∧
  (∀ (pair : Fin 4) (table : BitVec 8) (v : Word32) (o : Nat) (s : State), bit v 31 = false → o < 256 → o ≠ table.toNat →
    dirValid (s.dirView pair.val o) = true → dirKind (s.dirView pair.val o) = 2 →
    bit ((s.dirView pair.val o).getD 6 0) 31 = true → bits ((s.dirView pair.val o).getD 6 0) 7 0 = table.toNat →
    ∃ t, exec (.catDirWord0Write pair table v) s = .next t ∧
      t.reg (Reg.catDirResult pair.val) = BitVec.ofNat 32 (0x0203 * 65536 + table.toNat) ∧ OnlyRegs [Reg.catDirResult pair.val] s t) ∧
  (∀ (pair : Fin 4) (table : BitVec 8) (v : Word32) (s : State), bit v 31 = true → bits v 29 27 = 7 →
    ∃ t, exec (.catDirWord0Write pair table v) s = .next t ∧
      t.reg (Reg.catDirResult pair.val) = BitVec.ofNat 32 (0x0203 * 65536 + table.toNat) ∧ OnlyRegs [Reg.catDirResult pair.val] s t) ∧
  (∀ (pair : Fin 4) (table : BitVec 8) (v : Word32) (o : Nat) (s : State), bit v 31 = true → bits v 29 27 = 0 →
    o < 256 → o ≠ table.toNat →
    let e := v :: (List.range 7).map (fun i => s.reg (Reg.catDir pair.val table.toNat (i + 1)))
    let f := s.dirView pair.val o
    dirValid f = true → dirKind f = 0 →
    dirBase e < dirBase f + wayUnits (dirRepl f) 4 (dirLog2 f) → dirBase f < dirBase e + wayUnits (dirRepl e) 4 (dirLog2 e) →
    ∃ t, exec (.catDirWord0Write pair table v) s = .next t ∧
      t.reg (Reg.catDirResult pair.val) = BitVec.ofNat 32 (0x0201 * 65536 + table.toNat) ∧ OnlyRegs [Reg.catDirResult pair.val] s t) ∧
  (∀ (sl : Fin 8) (s : State),
    ∃ t, exec (.bankSwitch sl) s = .next t ∧ SetsBit (Reg.accCtl sl.val) 1 s t ∧ OnlyRegs [Reg.accCtl sl.val] s t ∧
      (bit (s.cfg (Reg.accCtl sl.val)) 1 = true → (s.applyBank sl.val).activeBank sl.val = 1 - s.activeBank sl.val ∧
        bit ((s.applyBank sl.val).reg (Reg.accCtl sl.val)) 1 = false)) ∧
  (∀ (w : Fin 8) (s : State),
    ∃ t, exec (.unlockAll w) s = .next t ∧ SetsBit (Reg.catCtl w.val) 0 s t ∧ OnlyRegs [Reg.catCtl w.val] s t ∧
      (bit (s.cfg (Reg.catCtl w.val)) 0 = true →
        (s.applyUnlockAll w.val).wing w.val = { s.wing w.val with locks := [] } ∧
        (∀ i, i ≠ w.val → (s.applyUnlockAll w.val).wing i = s.wing i) ∧
        bit ((s.applyUnlockAll w.val).reg (Reg.catCtl w.val)) 0 = false)) ∧
  (∀ (w : Fin 8) (unit : Nat) (s : State), unit < 2 ^ 20 → unit ∉ (s.wing w.val).dead → unit ∉ (s.wing w.val).bad →
    ∃ t, exec (.catRepair w ⟨unit, true⟩) s = .next t ∧ Counts (Reg.vigWingEcc w.val 0) 1 s t ∧ OnlyRegs [Reg.vigWingEcc w.val 0] s t) ∧
  ∀ (w : Fin 8) (unit : Nat) (s : State), unit < 2 ^ 20 → unit ∉ (s.wing w.val).dead → unit ∉ (s.wing w.val).bad →
    ∃ t, exec (.catRepair w ⟨unit, false⟩) s = .next t ∧ Counts (Reg.vigWingEcc w.val 1) 1 s t ∧
      (if (s.wing w.val).repaired + (s.wing w.val).bad.length < 256 then
        (t.wing w.val).bad = (s.wing w.val).bad ++ [unit] ∧ (t.wing w.val).dead = (s.wing w.val).dead ∧ SameMem s t ∧
        ∃ e ∈ t.vigil.log, e.event = 0x0021 ∧ e.object.toNat = 2 ^ 20 * w.val + unit
      else
        (t.wing w.val).dead = (s.wing w.val).dead ++ [unit] ∧ (t.wing w.val).bad = (s.wing w.val).bad ∧
        (∀ a, memRead t.mem a = if unitAddr w.val unit ≤ a ∧ a < unitAddr w.val unit + 64 then 0 else memRead s.mem a) ∧
        ∃ e ∈ t.vigil.log, e.event = 0x0022 ∧ e.object.toNat = 2 ^ 20 * w.val + unit) ∧
      (t.wing w.val).locks = (s.wing w.val).locks ∧ (∀ i, i ≠ w.val → t.wing i = s.wing i)

namespace Sys2Proof.Spec

open Sys2Proof.Machine

/-! ### The switch core and the replication engine (chapter 8) -/

/-- A plane in use delivers cell c, of one of the device's own streams, into context k, which expects number e and is not in a flush. -/
structure Delivers (s : State) (p k : Nat) (c : Cell) (e : BitVec 16) : Prop where
  inUse  : (s.plane p).state ≠ 2
  room   : (s.plane p).sent < 625
  first  : c.copy = false
  next   : nextCell (s.plane p).q = some c
  key    : k = c.ctx
  own    : s.ctxDev k = s.devId
  expect : (s.reseq k).e.getD c.seq = e
  still  : s.core.flushEnd ≤ s.now

/-- The plane has given up the cell, and no other plane has changed. -/
def GaveCell (s t : State) (p : Nat) (c : Cell) : Prop :=
  t.plane p = { s.plane p with
    q := (s.plane p).q.erase c
    sent := (s.plane p).sent + 1 } ∧ ∀ i, i ≠ p → t.plane i = s.plane i

/-- Cell c is not the one that completes what a frame still arriving has sent: its packet is whole, or stands past the core (R135). -/
def NotHead (x : Transit) : Prop := x.early = true ∨ (x.more = false ∧ x.cells ≤ x.head)

/-- Packets have been dropped at one site under one reason, n of them, and no other drop has been counted. -/
def DropsAt (site code n : Nat) (s t : State) : Prop :=
  ∀ j, 0x24000 ≤ j → j < 0x25000 → ctr t j = ctr s j + if j = 0x24000 + 256 * site + code then BitVec.ofNat 64 n else 0

/-- A queue of a port takes n more cells: the port is in service, no limit, no WRED and no shelving stands in the way (R234). -/
structure QueueTakes (s : State) (q port n : Nat) : Prop where
  named  : s.portExists port = true
  member : s.queueOf q port = true
  serves : s.inService port = true
  room   : ¬OverLimit s q port n
  noWred : bit (s.queueWord q 2) 27 = false
  head   : (s.queue q).shelv = false

/-- A copy stands last in a queue, with its first cell from a pool, and no other queue has changed. -/
def CopyQueued (s t : State) (q : Nat) (data : List Byte) (bufs : List Buf) : Prop :=
  (∃ p, (t.queue q).pkts = (s.queue q).pkts ++ [p] ∧ p.data = data ∧ p.bufs = bufs ∧ p.queue = some q) ∧
  ∀ i, i ≠ q → t.queue i = s.queue i

end Sys2Proof.Spec

/-- Resequencing (R217, R220, R221, R222). The expected cell is released, and with the last of its packet the packet reaches the queues of its slice,
or the replication engine. A later cell is held and opens a gap; an earlier one is discarded and noted. A cell with a bad HCRC is
lost and counted, and a plane under test notes it. A gap that has waited RESEQ_WAIT is skipped: the packets with a missing cell are dropped
with their held cells, and what is held follows (how far E moves past a dropped packet: log 91, DEDUCED); before that nothing
happens. With the last of the cells that a frame still arriving has sent, the packet goes on without its rest (R135). -/
def Obligations.CellsAreResequenced : Prop :=
  (∀ (plane : Fin 16) (k : Nat) (c : Cell) (x : Transit) (s : State), Delivers s plane.val k c c.seq → (s.reseq k).held = [] →
    c.last = false → s.core.transit.find? (fun y => y.pkt.id == c.pkt && y.ctx == k) = some x → NotHead x →
    ∃ t, exec (.cellArrive plane false) s = .next t ∧ GaveCell s t plane.val c ∧
      t.reseq k = { s.reseq k with e := some (c.seq + 1) } ∧ (∀ i, i ≠ k → t.reseq i = s.reseq i) ∧ t = { s with core := t.core }) ∧
  (∀ (plane : Fin 16) (k : Nat) (c : Cell) (x : Transit) (s : State), Delivers s plane.val k c c.seq → (s.reseq k).held = [] →
    s.core.transit.find? (fun y => y.pkt.id == c.pkt && y.ctx == k) = some x → x.pkt.bad = none → x.early = false →
    (c.last = true ∨ (c.seq + 1 = x.first + BitVec.ofNat 16 x.head ∧ x.head < x.cells + (if x.more then 1 else 0))) →
    ∃ t, exec (.cellArrive plane false) s = .next t ∧ GaveCell s t plane.val c ∧
      let p := if c.last then { x.pkt with
          data := x.pkt.data ++ x.rest
          bufs := x.pkt.bufs ++ x.restBufs
          ended := true } else x.pkt
      t.reseq k = { s.reseq k with e := some (c.seq + 1) } ∧
      (∀ y, y ≠ x → (y ∈ s.core.transit → y ∈ t.core.transit)) ∧ (c.last = true → x ∉ t.core.transit) ∧
      (c.last = false → ∃ y ∈ t.core.transit, y = { x with
        early := true
        pkt := { x.pkt with bufs := [] } }) ∧
      (x.kind ≠ 3 → (t.slice (k / 4096)).arrived = (s.slice (k / 4096)).arrived ++ [p] ∧ t.tm = s.tm) ∧
      (x.kind = 3 → t.tm.jobs = s.tm.jobs ++ [⟨p, slipGet p.slip 0x3C 2, 0, s.now⟩] ∧ t.slices = s.slices) ∧
      t = { s with
        core := t.core
        slices := t.slices
        tm := t.tm }) ∧
  (∀ (plane : Fin 16) (k : Nat) (c : Cell) (e : BitVec 16) (s : State), Delivers s plane.val k c e →
    ((c.seq - e).toNat ≠ 0 ∧ (c.seq - e).toNat < 32768 → s.heldAt (k / 4096) < 16384 →
      ∃ t, exec (.cellArrive plane false) s = .next t ∧ GaveCell s t plane.val c ∧
        t.reseq k = { s.reseq k with
          held := (s.reseq k).held ++ [c]
          gap := some ((s.reseq k).gap.getD s.now) } ∧ (∀ i, i ≠ k → t.reseq i = s.reseq i) ∧ t = { s with core := t.core }) ∧
    (32768 ≤ (c.seq - e).toNat →
      ∃ t, exec (.cellArrive plane false) s = .next t ∧ GaveCell s t plane.val c ∧ (∀ i, t.reseq i = s.reseq i) ∧
        SetsBit Reg.coreEvents 0 s t ∧ (c.buf = none → SameRegsBut [Reg.coreEvents] s t))) ∧
  (∀ (plane : Fin 16) (s : State), (s.plane plane.val).state = 2 →
    ∃ t, exec (.cellArrive plane true) s = .next t ∧ (t.plane plane.val).failed = true ∧ Counts (Reg.plHcrcCnt plane.val) 1 s t ∧
      SetsBit (Reg.plEvents plane.val) 2 s t ∧
      t = { s with
        core := t.core
        regs := t.regs }) ∧
  (∀ (plane : Fin 16) (k : Nat) (c : Cell) (e : BitVec 16) (s : State), Delivers s plane.val k c e →
    (∀ b, c.buf = some b → b.pool < 16) →
    ∃ t, exec (.cellArrive plane true) s = .next t ∧ (t.plane plane.val).q = (s.plane plane.val).q.erase c ∧
      (∀ i, t.reseq i = s.reseq i) ∧ Counts (Reg.plHcrcCnt plane.val) 1 s t ∧ bit (t.reg (Reg.plEvents plane.val)) 2 = true) ∧
  (∀ (slice ctx k g : Nat) (since : Nat) (e : BitVec 16) (c : Cell) (s : State), k = 4096 * slice + ctx % 4096 →
    s.ctxDev k = s.devId → s.core.flushEnd ≤ s.now → (s.reseq k).gap = some since →
    since + max 1 (bits (s.cfg Reg.coreReseq) 7 0) ≤ s.now → (s.reseq k).e = some e → (s.reseq k).held = [c] →
    g = (c.seq - e).toNat → g ≠ 0 → c.last = false →
    let gone := s.core.transit.filter (fun x => decide (x.ctx = k) && meetsGap x.first x.cells e g)
    gone.Nodup → (∀ x ∈ gone, x.early = false) → (∀ x ∈ s.core.transit, x.pkt.id = c.pkt → x.ctx = k → NotHead x) →
    ∃ t, exec (.reseqGap slice ctx) s = .next t ∧ (t.reseq k).held = [] ∧ (t.reseq k).gap = none ∧
      (c.pkt ∉ gone.map (fun x => x.pkt.id) → (t.reseq k).e = some (c.seq + 1)) ∧
      (∀ x, gone = [x] → c.pkt = x.pkt.id →
        (t.reseq k).e = some (e + BitVec.ofNat 16 (max g (x.first + BitVec.ofNat 16 x.cells - e).toNat))) ∧
      (∀ i, i ≠ k → t.reseq i = s.reseq i) ∧
      (∀ x, x ∈ t.core.transit ↔ x ∈ s.core.transit ∧ ¬(x.ctx = k ∧ meetsGap x.first x.cells e g = true)) ∧
      DropsAt (k / 4096) 0x50 gone.length s t) ∧
  ∀ (slice ctx since : Nat) (s : State), s.ctxDev (4096 * slice + ctx % 4096) = s.devId → s.core.flushEnd ≤ s.now →
    (s.reseq (4096 * slice + ctx % 4096)).gap = some since → s.now < since + max 1 (bits (s.cfg Reg.coreReseq) 7 0) →
    exec (.reseqGap slice ctx) s = .next s

/-- Planes (R216, R224, R225, R227). The egress slices that a heartbeat has not reached in a tick are noted. At the boundary a plane in service
is declared DOWN when one of them has missed PLANE_MISS, or for errors, and any plane OUT when the host takes it out: its cause is kept, and
the event, its notice and Vigil tell it; a boundary later it leaves the spray set. With none of the causes only the heartbeats are
counted. RETURN starts a test at the boundary; the one that ends it puts a clean plane back in service and into the spray set, and
leaves any other DOWN. A flush that has run its time ends. -/
def Obligations.PlanesLeaveAndReturn : Prop :=
  (∀ (plane : Fin 16) (missed : BitVec 8) (s : State),
    ∃ t, exec (.planeDown plane missed) s = .next t ∧
      ((s.plane plane.val).state = 0 ∨ (s.plane plane.val).state = 2 →
        t.plane plane.val = { s.plane plane.val with missed := (s.plane plane.val).missed ||| missed } ∧
        (∀ i, i ≠ plane.val → t.plane i = s.plane i) ∧ t = { s with core := t.core }) ∧
      ((s.plane plane.val).state ≠ 0 → (s.plane plane.val).state ≠ 2 → t = s)) ∧
  (∀ (x : Plane) (e : Nat), e < 8 → SMap.find 0 x.beat.miss e = (if bit x.missed e then SMap.find 0 x.miss e + 1 else 0) ∧
    x.beat.missed = 0 ∧ x.beat.failed = (x.failed || (decide (x.state = 2) && decide (x.missed ≠ 0)))) ∧
  (∀ (plane : Fin 16) (st cause : Nat) (s : State), (∀ x ∈ s.core.ctx, x.2.gap = none) → s.dcp.notices.length < 1023 →
    let b := (s.plane plane.val).beat
    let miss := bits (s.cfg (Reg.plLimit plane.val)) 19 16
    let lim := bits (s.cfg (Reg.plLimit plane.val)) 15 0
    let errs := (b.errs.filter (fun x => decide (s.now ≤ x + 256))).length
    let mute := miss ≠ 0 ∧ ∃ e ∈ b.miss, miss ≤ e.2
    let t := s.planeJudge plane.val
    (((st = 1 ∧ cause = 1 ∧ b.state = 0 ∧ mute) ∨ (st = 1 ∧ cause = 2 ∧ b.state = 0 ∧ ¬mute ∧ lim ≠ 0 ∧ lim ≤ errs) ∨
      (st = 3 ∧ cause = 3 ∧ b.state ≠ 3 ∧ ¬(b.state = 0 ∧ (mute ∨ (lim ≠ 0 ∧ lim ≤ errs))) ∧
        bit (s.cfg (Reg.plCtl plane.val)) 0 = true)) →
      t.plane plane.val = { b with
        state := st
        cause := cause
        leave := true } ∧
      (∀ i, i ≠ plane.val → t.plane i = s.plane i) ∧ bit (t.reg (Reg.plEvents plane.val)) 0 = true ∧
      bit (t.reg Reg.coreEvents) 2 = true ∧
      (bit (s.cfg (Reg.plCtl plane.val)) 0 = true → bit (t.reg (Reg.plCtl plane.val)) 0 = false) ∧
      (∃ n ∈ t.dcp.notices, n.type = 0x0021 ∧ n.body = [BitVec.ofNat 8 plane.val, BitVec.ofNat 8 cause, 0, 0]) ∧
      (∃ e, t.vigil.log.getLast? = some e ∧ e.event = 0x0010 ∧ e.object.toNat = plane.val) ∧
      t.core.flushEnd = max s.core.flushEnd (s.now + 1 + bits (s.cfg Reg.coreReseq) 7 0) ∧ t.core.spray = s.core.spray ∧
      SameMem s t) ∧
    (¬(b.state = 0 ∧ (mute ∨ (lim ≠ 0 ∧ lim ≤ errs))) → bit (s.cfg (Reg.plCtl plane.val)) 0 = false →
      t.plane plane.val = b ∧ (∀ i, i ≠ plane.val → t.plane i = s.plane i) ∧ t = { s with core := t.core })) ∧
  (∀ (p : Nat) (s : State), (s.plane p).leave = true → (s.plane p).q = [] → p < 16 →
    let t := s.leaveSpray p
    t.plane p = { s.plane p with leave := false } ∧ (∀ i, i < 16 → bit t.core.spray i = (bit s.core.spray i && decide (i ≠ p))) ∧
    SetsBit Reg.coreEvents 1 s t ∧ (∀ i, i ≠ p → t.plane i = s.plane i) ∧
    t = { s with
      core := t.core
      regs := t.regs }) ∧
  (∀ (plane : Fin 16) (s : State),
    (∃ t, exec (.takeOut plane) s = .next t ∧ SetsBit (Reg.plCtl plane.val) 0 s t ∧ OnlyRegs [Reg.plCtl plane.val] s t) ∧
    ∃ t, exec (.planeReturn plane) s = .next t ∧ SetsBit (Reg.plCtl plane.val) 1 s t ∧ OnlyRegs [Reg.plCtl plane.val] s t) ∧
  (∀ (p : Nat) (s : State), bit (s.cfg (Reg.plCtl p)) 1 = true → ((s.plane p).state = 1 ∨ (s.plane p).state = 3) →
    (s.plane p).leave = false →
    (s.planeReturn p).plane p = { s.plane p with
      state := 2
      tested := s.now
      failed := false
      errs := []
      miss := []
      ending := false } ∧ bit ((s.planeReturn p).reg (Reg.plCtl p)) 1 = false) ∧
  (∀ (plane : Fin 16) (missed : BitVec 8) (s : State),
    ∃ t, exec (.planeTestEnd plane missed) s = .next t ∧
      ((s.plane plane.val).state = 2 → (s.plane plane.val).tested + 1024 ≤ s.now + 1 →
        t.plane plane.val = { s.plane plane.val with
          ending := true
          missed := (s.plane plane.val).missed ||| missed } ∧ (∀ i, i ≠ plane.val → t.plane i = s.plane i) ∧
        t = { s with core := t.core }) ∧
      ((s.plane plane.val).state ≠ 2 ∨ s.now + 1 < (s.plane plane.val).tested + 1024 → t = s)) ∧
  (∀ (p : Nat) (s : State), p < 16 → (s.plane p).state = 2 → ((s.plane p).ending = true ∨ (s.plane p).tested + 1024 ≤ s.now) →
    let t := s.planeTested p
    (∀ i, i ≠ p → t.plane i = s.plane i) ∧ SameMem s t ∧
    ((s.plane p).failed = false → (s.plane p).missed = 0 →
      (t.plane p).state = 0 ∧ (t.plane p).cause = 0 ∧ (∀ i, i < 16 → bit t.core.spray i = (bit s.core.spray i || decide (i = p))) ∧
      SetsBit (Reg.plEvents p) 1 s t ∧ bit (t.reg Reg.coreEvents) 1 = true ∧
      t = { s with
        core := t.core
        regs := t.regs }) ∧
    (((s.plane p).failed = true ∨ (s.plane p).missed ≠ 0) →
      (t.plane p).state = 1 ∧ (t.plane p).cause = 4 ∧ t.core.spray = s.core.spray)) ∧
  ∀ s : State,
    ∃ t, exec .pathFlushEnd s = .next t ∧ t.core.flushEnd = (if s.core.flushEnd ≤ s.now then 0 else s.core.flushEnd) ∧
      t.core.fabEnd = (if s.core.fabEnd ≤ s.now then 0 else s.core.fabEnd) ∧
      t = { s with core := { s.core with
        flushEnd := t.core.flushEnd
        fabEnd := t.core.fabEnd } }

/-- Copies (R244 to R250). A multicast packet of an empty group is dropped; one with one member has its copy, with a first cell of the pool of
REPL_CFG, stand in the queue its entry names. A copy in the residue that its queue takes leaves it, one the queue has no room for stays, and one
that has waited RESIDUE_WAIT is dropped and counted for its group and its port. A mirror copy stands, shortened as its session says, in the
session's queue; past the tick's 2,048 copies it is shed and counted. The residue is retried once a tick, before the first new copy;
mirror copies come after every multicast copy that the tick can make, and none of those follows them. -/
def Obligations.CopiesAreMadeAndWait : Prop :=
  (∀ s : State, (s.flowing = true → s.tm.retried = true → exec .residueRetry s = .next s) ∧
    (s.tm.mirTurn = true → exec .replicate s = .next s) ∧
    (s.tm.jobs ≠ [] → s.tm.mirTurn = false → s.tm.copies < 2048 → exec .mirrorCopy s = .next s)) ∧
  (∀ (j : ReplJob) (rest : List ReplJob) (s : State), s.flowing = true → s.tm.mirTurn = false →
    (s.tm.retried = true ∨ s.tm.residue = []) → s.tm.jobs = j :: rest → j.entry = 0 → j.pkt.bad = none →
    bits (s.cfg (Reg.replGroup j.group)) 11 0 = 0 → j.pkt.orig = none →
    ∃ t, exec .replicate s = .next t ∧ t.tm.jobs = rest ∧ DropsAt 8 0x39 1 s t ∧ (∀ q, t.queue q = s.queue q)) ∧
  (∀ (j : ReplJob) (rest : List ReplJob) (b : Buf) (s : State), s.flowing = true → s.tm.mirTurn = false → s.tm.jobs = j :: rest → j.entry = 0 →
    j.pkt.bad = none → s.tm.residue = [] → s.tm.copies < 2048 → (∀ x ∈ s.tm.shared, x.1 ≠ j.pkt.id) →
    let g := s.cfg (Reg.replGroup j.group)
    let w0 := s.cfg (Reg.replEntry (bits g 31 16) 0)
    let w1 := s.cfg (Reg.replEntry (bits g 31 16) 1)
    let pool := bits (s.cfg Reg.replCfg) 31 28
    bits g 11 0 = 1 → bit w1 31 = true → (bit w0 31 = false ∨ bits w1 9 0 ≠ j.pkt.inPort) →
    s.sysPort (bits w1 9 0) = .here (bits w1 9 0) → QueueTakes s (bits w0 17 0) (bits w1 9 0) j.pkt.cells →
    let quad := bits w0 17 0 / 65536
    HasCells s pool quad 1 → ((s.pool pool).cache quad).head? = some b.num → b.pool = pool →
    ∃ t, exec .replicate s = .next t ∧ t.tm.jobs = rest ∧ t.tm.copies = s.tm.copies + 1 ∧
      CopyQueued s t (bits w0 17 0) (s.loadPkt 0 j.pkt).data [b] ∧
      (t.pool pool).cache quad = ((s.pool pool).cache quad).drop 1 ∧ DropsAt 8 0 0 s t) ∧
  (∀ (c : Copy) (r : Nat) (s : State), s.flowing = true → s.tm.retried = false → s.tm.residue = [c] → c.pkt.bad = none → s.sysPort c.port = .here r →
    let pool := bits (s.cfg Reg.replCfg) 31 28
    (QueueTakes s c.pkt.destQueue c.pkt.destPort c.pkt.cells →
      HasCells s pool (c.pkt.destQueue / 65536) 1 →
      ∃ t b, exec .residueRetry s = .next t ∧ t.tm.residue = [] ∧ CopyQueued s t c.pkt.destQueue c.pkt.data [b]) ∧
    (s.portExists c.pkt.destPort = true → s.queueOf c.pkt.destQueue c.pkt.destPort = true → s.inService c.pkt.destPort = true →
      OverLimit s c.pkt.destQueue c.pkt.destPort c.pkt.cells →
      ∃ t, exec .residueRetry s = .next t ∧ t.tm.residue = [c] ∧ ∀ q, t.queue q = s.queue q)) ∧
  (∀ (c : Copy) (s : State), s.tm.residue.find? (fun x => decide (x.born + bits (s.cfg Reg.replCfg) 19 0 ≤ s.now)) = some c →
    s.sysPort c.port = .here c.port → s.portExists c.port = true → c.group < 4096 → c.pkt.bufs = [] → (∀ x ∈ s.tm.shared, ∀ b ∈ x.2.bufs, b.pool < 16) →
    ∃ t, exec .residueExpired s = .next t ∧ t.tm.residue = s.tm.residue.erase c ∧ DropsAt 8 0x53 1 s t ∧
      ctr t (0x28000 + c.group) = ctr s (0x28000 + c.group) + 1 ∧
      ctr t (0x20000 + 32 * c.port + 6) = ctr s (0x20000 + 32 * c.port + 6) + 1 ∧ bit (t.reg Reg.replEvents) 0 = true) ∧
  ∀ (j : MirJob) (rest : List MirJob) (s : State), s.tm.mirJobs = j :: rest → j.pkt.bad = none →
    let w0 := s.cfg (Reg.mirSession j.session 0)
    let w1 := s.cfg (Reg.mirSession j.session 1)
    let y := s.mirrorPkt j.session j.pkt
    let dp := bits w0 27 18
    let q := bits w0 17 0
    dp < 512 → s.sysPort dp = .here dp → (s.tm.jobs = [] ∨ s.tm.mirTurn = true ∨ 2048 ≤ s.tm.copies) → s.portExists dp = true →
    (2048 ≤ s.tm.copies → ∃ t, exec .mirrorCopy s = .next t ∧ t.tm.mirJobs = rest ∧ DropsAt 8 0x54 1 s t ∧
      ctr t (0x20000 + 32 * dp + 7) = ctr s (0x20000 + 32 * dp + 7) + 1 ∧ bit (t.reg Reg.mirEvents) 0 = true) ∧
    (s.tm.copies < 2048 → (s.queue q).depth < bits (s.cfg (Reg.mirSession j.session 2)) 19 0 →
      HasCells s (bits w1 15 12) (q / 65536) 1 → QueueTakes s q dp y.cells →
      ∃ t b, exec .mirrorCopy s = .next t ∧ t.tm.mirJobs = rest ∧ t.tm.copies = s.tm.copies + 1 ∧
        CopyQueued s t q (if bits w1 9 0 = 0 then j.pkt.data else j.pkt.data.take (min 512 (max 64 (bits w1 9 0)))) [b])

namespace Sys2Proof.Spec

open Sys2Proof.Machine

/-! ### Ethernet ports (chapter 9) -/

/-- A port is in a state; no other port, of the network or the host, has changed state. -/
def PortGoes (s t : State) (port : Nat) (st : PortState) : Prop :=
  t.portSt port = st ∧ ∀ q, q ≠ port → q < 514 → t.portSt q = s.portSt q

/-- A state is due for a port at the next boundary; no port has changed state, and no other has one due that it had not (R258). -/
def PortDue (s t : State) (port : Nat) (st : PortState) : Prop :=
  t.dueSt port = some st ∧ (∀ q, q ≠ port → q < 514 → t.dueSt q = s.dueSt q) ∧ ∀ q, q < 514 → t.portSt q = s.portSt q

/-- At the boundary that follows state old a port may act in s: it is enabled, and its half of the octet keeps its mode (R258, R272). -/
def MayTick (old s : State) (port : Nat) : Prop :=
  port < 514 ∧ s.enabled port = true ∧ State.modeChange old s port = false

/-- A port leaves for FAULT, or DISABLED (R236, R258): no frame arrives on it and no copy waits for it. LINK_DOWN is noted where it
was UP or held, and the flush of its queues begins if it was in service before the boundary. -/
def LeavesService (old s t : State) (port : Nat) (st : PortState) : Prop :=
  PortGoes s t port st ∧
  (s.portSt port = .up ∨ s.portSt port = .hold → bit (t.reg (Reg.octEvents (port / 8))) 0 = true) ∧
  (old.inService port = true → port ∉ s.tm.flushing → t.tm.flushing = s.tm.flushing ++ [port] ∧
    bit (t.reg (Reg.tmEvents (port / 64))) 1 = true) ∧
  (∀ q, t.queue q = s.queue q)

/-- The divider of a recovered clock by the rate of its lane, in units of 0.01 Gb/s (R269; the first row: log 95, DEDUCED). -/
def clockRatio (rate : Nat) : Nat :=
  if rate = 42500 then 1360 else if rate = 21250 then 680 else if rate = 10625 then 340 else if rate = 5312 then 170
  else if rate = 2578 then 165 else 0

end Sys2Proof.Spec

/-- The link of a port (R254, R258 to R261, R265, R272, R336, R341). EN is a bit of its port register. States are entered at tick boundaries. A
partner with the port's ability takes it from AN to TRAINING, one without leaves it there and is noted; training leads to ALIGNING, with the
inversions found, and alignment to UP, with the lane order found; another order is noted, but not in a loopback. Loss of the link takes it to HOLD,
where nothing is dropped, and back to UP in time; with no DOWN_HOLD, or when that has passed, it is in FAULT and leaves service. A port that is not
enabled, or whose half has another mode, is DISABLED; from there and from FAULT it enters AN, and advertises its ability, or TRAINING. A host port
that loses its link drops what its classes hold. Octets (R266 to R270, R272). OCT_MODE is written whole outside RUNNING; in RUNNING a half changes
only if neither its old nor its new setting is FABRIC and none of its ports is enabled, else the write has no effect. START and CANCEL of an eye scan
are armed, START not while a scan runs. Each point of a scan joins its row, the last of a row sends the row to the Stacks, and after the last row the
scan is done. An output of a recovered clock is squelched, which its octet notes, and resumes once its lane has held lock for 1,024 ticks, divided by
the ratio of its lane's rate. -/
def Obligations.LinesOfEthernetPorts : Prop :=
  (
  (∀ (port : Nat) (en : Bool) (s : State), port < 514 → (512 ≤ port ∨ s.portNamed port = true) →
    let ca := if port < 512 then Reg.octPortCfg (port / 8) (port % 8) else Reg.hpCfg (port - 512)
    ∃ t, exec (.portEnable port en) s = .next t ∧ (∀ k, bit (t.reg ca) k = if k = 31 then en else bit (s.reg ca) k) ∧ OnlyRegs [ca] s t) ∧
  (∀ (port : Nat) (partner : List (Nat × Nat)) (s : State), port < 514 → s.portSt port = .an →
    ∃ t, exec (.anAgree port partner) s = .next t ∧
      ((s.portWidth port, s.portRate port) ∈ partner → PortDue s t port .training ∧ t.regs = s.regs) ∧
      ((s.portWidth port, s.portRate port) ∉ partner → (port < 512 → SetsBit (Reg.octEvents (port / 8)) 2 s t) ∧
        t = { s with regs := t.regs })) ∧
  (∀ (port : Nat) (inverted : BitVec 8) (s : State), port < 514 → s.portSt port = .training →
    ∃ t, exec (.trainingDone port inverted) s = .next t ∧ PortDue s t port .aligning ∧
      (port < 512 → s.portLoop port = 0 → ∀ i, i < s.portWidth port →
        bit (t.reg (Reg.octLaneStatus (port / 8) (port % 8 + i))) 30 = bit inverted i) ∧
      SameRegsBut ((List.range (s.portWidth port)).map (fun i => Reg.octLaneStatus (port / 8) (port % 8 + i))) s t) ∧
  (∀ (port : Nat) (reversed : Bool) (s : State), port < 514 → s.portSt port = .aligning →
    ∃ t, exec (.linkUp port reversed) s = .next t ∧ PortDue s t port .up ∧
      (port < 512 → s.portLoop port = 0 → ∀ i, i < s.portWidth port →
        let ca := Reg.octLaneStatus (port / 8) (port % 8 + i)
        bit (t.reg ca) 29 = (reversed && decide (2 ≤ s.portWidth port)) ∧
        bits (t.reg ca) 26 24 = if reversed = true then s.portWidth port - 1 - i else i)) ∧
  (∀ (port : Nat) (s : State), port < 512 → s.portSt port = .aligning → 2 ≤ s.portWidth port →
    ∃ t, exec (.alignFail port) s = .next t ∧
      (s.portLoop port = 0 → SetsBit (Reg.octEvents (port / 8)) 3 s t ∧ OnlyRegs [Reg.octEvents (port / 8)] s t) ∧
      (s.portLoop port ≠ 0 → t = s)) ∧
  (∀ (port : Nat) (lf rf : Bool) (s : State), port < 514 → s.portSt port = .up →
    ∃ t, exec (.linkLoss port lf rf) s = .next t ∧ t.tm = s.tm ∧ t.regs = s.regs ∧
      PortDue s t port
        (if port < 512 ∧ bits (s.cfg (Reg.octPortCfg (port / 8) (port % 8))) 15 0 ≠ 0 then .hold else .fault) ∧
      (port < 512 → (t.port port).localF = lf ∧ (t.port port).remoteF = rf)) ∧
  (∀ (port : Nat) (s : State), port < 512 → s.portSt port = .hold →
    let ends := (s.port port).holdAt + bits (s.cfg (Reg.octPortCfg (port / 8) (port % 8))) 15 0
    (s.now ≤ ends → ∃ t, exec (.holdRestore port) s = .next t ∧ PortDue s t port .up ∧ t = { s with ports := t.ports }) ∧
    (ends ≤ s.now + 1 → ∃ t, exec (.holdExpire port) s = .next t ∧ PortDue s t port .fault ∧ t = { s with ports := t.ports }) ∧
    (s.now + 1 < ends → exec (.holdExpire port) s = .next s)) ∧
  (∀ (port : Nat) (old s : State), MayTick old s port → s.dueSt port = some .up →
    let t := State.portTick old s port
    PortGoes s t port .up ∧ t.dueSt port = none ∧ (port < 512 → SetsBit (Reg.octEvents (port / 8)) 1 s t) ∧ t.tm = s.tm) ∧
  (∀ (port : Nat) (old s : State), MayTick old s port → s.dueSt port = some .hold → port < 512 →
    (∀ x ∈ s.rx, x.1 ≠ port) →
    let t := State.portTick old s port
    PortGoes s t port .hold ∧ (t.port port).holdAt = s.now ∧ t.tm = s.tm ∧ t.slices = s.slices) ∧
  (∀ (port : Nat) (old s : State), MayTick old s port → port < 512 →
    (s.dueSt port = some .fault ∨ (s.dueSt port = none ∧ s.portSt port = .hold ∧
      (s.port port).holdAt + bits (s.cfg (Reg.octPortCfg (port / 8) (port % 8))) 15 0 ≤ s.now)) →
    (∀ x ∈ s.rx, x.1 ≠ port) → (∀ c ∈ s.tm.residue, s.sysPort c.port ≠ .here port) →
    LeavesService old s (State.portTick old s port) port .fault) ∧
  (∀ (port : Nat) (old s : State), port < 512 → (s.enabled port = false ∨ State.modeChange old s port = true) →
    (∀ x ∈ s.rx, x.1 ≠ port) → (∀ c ∈ s.tm.residue, s.sysPort c.port ≠ .here port) → s.portSt port ≠ .disabled →
    LeavesService old s (State.portTick old s port) port .disabled) ∧
  (∀ (port : Nat) (old s : State), MayTick old s port → s.dueSt port = none →
    (s.portSt port = .disabled ∨ s.portSt port = .fault) →
    let t := State.portTick old s port
    let an := port < 512 ∧ bit (s.cfg (Reg.octPortCfg (port / 8) (port % 8))) 25 = true ∧ s.portLoop port = 0 ∧ Config.c2m port = false
    (an → PortGoes s t port .an ∧ t.out = s.out ++ [.advert port (s.portWidth port) (s.portRate port)
      (if s.portRate port = 25 then some (bits (s.cfg (Reg.octPortCfg (port / 8) (port % 8))) 27 26) else none)]) ∧
    (¬an → PortGoes s t port .training ∧ t.out = s.out)) ∧
  ∀ (h : Fin 2) (old s : State), MayTick old s (512 + h.val) → s.portSt (512 + h.val) = .up → s.dueSt (512 + h.val) = some .fault →
    (∀ x ∈ s.rx, x.1 ≠ 512 + h.val) →
    let t := State.portTick old s (512 + h.val)
    PortGoes s t (512 + h.val) .fault ∧
    (∀ c, c < 8 → t.hostQueue h.val c = []) ∧ (∀ g c, g < 2 → g ≠ h.val → c < 8 → t.hostQueue g c = s.hostQueue g c) ∧
    DropsAt 8 0x56 ((List.range 8).map (fun c => (s.hostQueue h.val c).length)).sum s t) ∧
  (
  (∀ (o : Fin 64) (v : Word32) (s : State),
    let old := s.reg (Reg.octMode o.val)
    let new := v &&& 0x8000FF33
    let held := ∃ h, h < 2 ∧ halfOf old h ≠ halfOf new h ∧ (halfFabric old h = true ∨ halfFabric new h = true ∨
      ∃ i, i < 8 ∧ modeWidth old i ≠ 0 ∧ (i / 4 = h ∨ bit old 31 = true) ∧ bit (s.reg (Reg.octPortCfg o.val i)) 31 = true)
    (s.boot.phase = .running ∧ held → exec (.octModeWrite o v) s = .next s) ∧
    (¬(s.boot.phase = .running ∧ held) →
      ∃ t, exec (.octModeWrite o v) s = .next t ∧ t.reg (Reg.octMode o.val) = new ∧ OnlyRegs [Reg.octMode o.val] s t)) ∧
  (∀ (o : Fin 64) (s : State),
    (∃ t, exec (.eyeScanStart o) s = .next t ∧
      bit (t.reg (Reg.octEyeCtl o.val)) 31 = (decide ((s.eye o.val).state ≠ 1) || bit (s.reg (Reg.octEyeCtl o.val)) 31) ∧
      OnlyRegs [Reg.octEyeCtl o.val] s t) ∧
    ∃ t, exec (.eyeScanCancel o) s = .next t ∧ bit (t.reg (Reg.octEyeCtl o.val)) 28 = true ∧ OnlyRegs [Reg.octEyeCtl o.val] s t) ∧
  (∀ (o : Fin 64) (errors : Nat) (s : State), (s.eye o.val).state = 1 → (s.eye o.val).points < 4096 →
    ∃ t, exec (.eyePointDone o errors) s = .next t ∧ (t.eye o.val).points = (s.eye o.val).points + 1 ∧
      (let word := if errors < 2 ^ 31 then BitVec.ofNat 32 errors else 0xFFFFFFFF
       if ((s.eye o.val).points + 1) % 64 = 0 then
         (t.eye o.val).row = [] ∧
         (Counts (Reg.stkPostDrop (o.val / 16)) 1 s t ∧ t.gddr = s.gddr ∨
          ∃ w : PostW, t.gddr.posts = s.gddr.posts ++ [w] ∧ w.data = ((s.eye o.val).row ++ [word]).flatMap (fun x => leBytes 4 x.toNat) ∧
            w.addr = (s.cfg (Reg.octEyeAddrHi o.val)).toNat % 65536 * 2 ^ 32 + (s.cfg (Reg.octEyeAddrLo o.val)).toNat +
              256 * ((s.eye o.val).points / 64) ∧ w.add = false)
       else (t.eye o.val).row = (s.eye o.val).row ++ [word] ∧ t.gddr = s.gddr) ∧
      (∀ i, i ≠ o.val → t.eye i = s.eye i) ∧
      t = { s with
        eyes := t.eyes
        gddr := t.gddr
        regs := t.regs
        free := t.free }) ∧
  (∀ (o : Fin 64) (s : State), (s.eye o.val).state = 1 → (s.eye o.val).points = 4096 →
    ∃ t, exec (.eyeDone o) s = .next t ∧ t.eye o.val = { s.eye o.val with state := 2 } ∧ (∀ i, i ≠ o.val → t.eye i = s.eye i) ∧
      bit (t.reg (Reg.octEyeCtl o.val)) 31 = false ∧ SetsBit (Reg.octEvents o.val) 4 s t ∧
      t = { s with
        eyes := t.eyes
        regs := t.regs
        dp := t.dp }) ∧
  ∀ (b : Bool) (o : Nat) (s : State), o < 64 → bit (s.cfg (Reg.octRclk o)) (if b then 15 else 7) = true →
    (∀ i, i < o → bit (s.cfg (Reg.octRclk i)) (if b then 15 else 7) = false) →
    (∃ t, exec (.rclkSquelch b) s = .next t ∧ (t.rclk b).squelched = true ∧ (t.rclk b).since = s.now ∧ t.rclk (!b) = s.rclk (!b) ∧
      ((s.rclk b).squelched = false → (t.rclk b).khz = 0 ∧ SetsBit (Reg.octEvents o) 5 s t) ∧
      t = { s with
        rclkA := t.rclkA
        rclkB := t.rclkB
        regs := t.regs }) ∧
    let lane := if b then bits (s.cfg (Reg.octRclk o)) 10 8 else bits (s.cfg (Reg.octRclk o)) 2 0
    let ready := s.laneServes o lane = true ∧ (s.rclk b).since + 1024 ≤ s.now + 1
    ∃ t, exec (.rclkResume b) s = .next t ∧ t.rclk (!b) = s.rclk (!b) ∧ (¬ready → t = s) ∧
      (ready → (t.rclk b).squelched = false ∧ (t.rclk b).ratio = clockRatio (s.laneGbps o lane) ∧
        ((s.rclk b).changing = false →
          (t.rclk b).khz = if bit (s.cfg (Reg.octRclk o)) (if b then 17 else 16) then 78125 else 156250)) ∧
      t = { s with
        rclkA := t.rclkA
        rclkB := t.rclkB })

namespace Sys2Proof.Spec

open Sys2Proof.Machine

/-! ### Fabric links (chapter 10) -/

/-- Only lane l of the fabric has changed among the lanes. -/
def OnlyLane (l : Nat) (s t : State) : Prop := ∀ i, i ≠ l → t.lane i = s.lane i

/-- Lane l is to enter a state at the next boundary, with a CAUSE, and nothing else has changed (R288). -/
def EntersNext (l : Nat) (st : LaneState) (cause : Nat) (s t : State) : Prop :=
  t.lane l = { s.lane l with due := some (st, cause) } ∧ OnlyLane l s t ∧ t = { s with fabric := t.fabric }

/-- A lane in service has gone DOWN with a cause; its transmit direction is not usable. -/
def LaneDown (l cause : Nat) (s t : State) : Prop :=
  (t.lane l).state = .down ∧ (t.lane l).cause = cause ∧ (t.lane l).partReady = false ∧ (t.lane l).inSpray = false ∧ OnlyLane l s t

/-- Why training does not end (Table 10.4, R275, R283, R285 to R287): 0 if it ends. -/
def trainingCause (s : State) (l minVer maxVer : Nat) (compact freqBad crossed : Bool) : Nat :=
  let q := l / 128
  let v := min (bits (s.cfg (Reg.fabCtl q)) 19 16) maxVer
  let rate := bits (s.cfg (Reg.fabLaneCfg q (l % 128))) 27 26
  if v < max (bits (s.cfg (Reg.fabCtl q)) 11 8) minVer then 1
  else if ¬(rate + 3 ≤ v ∧ rate ≤ 2) then 2
  else if compact ≠ bit (s.cfg (Reg.fabCtl q)) 0 then 3
  else if freqBad = true then 4
  else if crossed = true then 5
  else 0

/-- Nothing of the host acts on a lane at the boundary: EN is 1, the bits of FAB_LANE_CTL are 0, and no graceful end is under way. -/
structure LaneLeft (s : State) (l : Nat) : Prop where
  lane  : s.isLane l = true
  on    : bit (s.cfg (Reg.fabLaneCfg (l / 128) (l % 128))) 31 = true
  ctl   : ∀ i, i < 3 → bit (s.cfg (Reg.fabLaneCtl (l / 128) (l % 128))) i = false
  open' : (s.lane l).graceful = none

/-- LOSS: the partner has sent READY = 1, and no frame has passed in the ticks that FAB_LOSS gives, the one that ends with them. -/
def LaneSilent (s : State) (l : Nat) : Prop :=
  (s.lane l).partReady = true ∧
    max 1 (bits (s.cfg (Reg.fabLoss (l / 128))) 27 24) ≤ (if (s.lane l).passed = true then 0 else (s.lane l).idleTicks + 1)

/-- ERRORS: the partner has sent READY = 1, and the 64 ticks before tick n held too many uncorrectable codewords. -/
def LaneErrs (s : State) (l n : Nat) : Prop :=
  let lim := bits (s.cfg (Reg.fabLoss (l / 128))) 15 0
  (s.lane l).partReady = true ∧ lim ≠ 0 ∧ lim ≤ ((s.lane l).errs.filter (fun x => decide (n ≤ x + 64))).length

end Sys2Proof.Spec

/-- The states of a fabric lane (R275, R282 to R288, R291, R298): they are entered at tick boundaries. Training that finds a version, a rate and a
framing in common leads to ALIGNING; else the lane stays and its CAUSE is recorded. 16 commas, or in compact framing ALIGN_DONE after 16 frames that
pass, lead to TESTING, 1,024 ticks of it to service. BITSLIP, ALIGN_DONE, RETRAIN and EN = 0 are armed; a lane whose graceful end has lasted 16 ticks
goes. Loss, errors or a wandering phase are remembered until the boundary. What has no reason changes nothing. What a tick boundary does to a lane
(R282, R284, R288, R290, R291, R298). It enters the state that is due; one in TESTING for 1,024 ticks enters service with its event, one in DOWN
trains. A loss is declared: the lane is DOWN with its CAUSE, told by event, notice and Vigil, and other devices' streams are flushed. BITSLIP delays
the frame boundary one bit. RETRAIN trains the lane again, EN = 0 ends it, in service gracefully. The lane is in the spray sets exactly if it is
usable. -/
def Obligations.LanesTrainTestAndServe : Prop :=
  (
  (∀ (l : Nat) (dev : BitVec 6) (plane : BitVec 9) (fe : Bool) (lo hi : Nat) (compact freqBad crossed inverted : Bool) (rtt : BitVec 24)
      (s : State), s.isLane l = true → (s.lane l).state = .training →
    ∃ t, exec (.fabTrainingDone l dev plane fe lo hi compact freqBad ⟨crossed, inverted⟩ rtt) s = .next t ∧ OnlyLane l s t ∧
      bit (t.reg (Reg.octLaneStatus (l / 8) (l % 8))) 30 = inverted ∧
      SameRegsBut [Reg.octLaneStatus (l / 8) (l % 8), Reg.fabEvents (l / 128)] s t ∧
      (let cause := trainingCause s l lo hi compact freqBad crossed
       let x := { s.lane l with
         partDev := dev.toNat
         partLane := plane.toNat
         partFe := fe
         cause := cause }
       if cause = 0 then
         t.lane l = { x with
           ver := min (bits (s.cfg (Reg.fabCtl (l / 128))) 19 16) hi
           rtt := rtt
           due := some (.aligning, 0) } ∧ t.reg (Reg.fabEvents (l / 128)) = s.reg (Reg.fabEvents (l / 128))
       else t.lane l = x ∧ SetsBit (Reg.fabEvents (l / 128)) 3 s t) ∧
      t = { s with
        fabric := t.fabric
        regs := t.regs }) ∧
  (∀ (l : Nat) (s : State), s.isLane l = true → (s.lane l).state = .aligning →
    let ctl := Reg.fabLaneCtl (l / 128) (l % 128)
    (bit (s.cfg (Reg.fabCtl (l / 128))) 0 = false →
      (16 ≤ (s.lane l).commas → ∃ t, exec (.commaLock l) s = .next t ∧ EntersNext l .testing (s.lane l).cause s t) ∧
      ((s.lane l).commas < 16 → exec (.commaLock l) s = .next s) ∧ exec (.bitslip l) s = .next s ∧ exec (.alignDone l) s = .next s) ∧
    (bit (s.cfg (Reg.fabCtl (l / 128))) 0 = true → exec (.commaLock l) s = .next s ∧
      (∃ t, exec (.bitslip l) s = .next t ∧ SetsBit ctl 0 s t ∧ OnlyRegs [ctl] s t) ∧
      ((s.lane l).last16 = List.replicate 16 true → ∃ t, exec (.alignDone l) s = .next t ∧ SetsBit ctl 1 s t ∧ OnlyRegs [ctl] s t) ∧
      ((s.lane l).last16.length ≤ 16 → (s.lane l).last16 ≠ List.replicate 16 true → exec (.alignDone l) s = .next s))) ∧
  (∀ (l : Nat) (s : State), s.laneNamed l = true →
    (∃ t, exec (.fabRetrain l) s = .next t ∧ SetsBit (Reg.fabLaneCtl (l / 128) (l % 128)) 2 s t ∧
      OnlyRegs [Reg.fabLaneCtl (l / 128) (l % 128)] s t) ∧
    ∃ t, exec (.fabLaneDisable l) s = .next t ∧ bit (t.reg (Reg.fabLaneCfg (l / 128) (l % 128))) 31 = false ∧
      OnlyRegs [Reg.fabLaneCfg (l / 128) (l % 128)] s t) ∧
  (∀ (l : Nat) (s : State), s.isLane l = true → (s.lane l).state = .testing → (s.lane l).due = none →
    (1023 ≤ (s.lane l).testTicks → ∃ t, exec (.fabTestPass l) s = .next t ∧ EntersNext l .inService 0 s t) ∧
    ((s.lane l).testTicks < 1023 → exec (.fabTestPass l) s = .next s)) ∧
  (∀ (l since : Nat) (s : State), (s.lane l).graceful = some since →
    (since + 15 ≤ s.now → ∃ t, exec (.fabGracefulEnd l) s = .next t ∧
      EntersNext l (if s.laneEn l = true then .training else .disabled) (s.lane l).cause s t) ∧
    (s.now < since + 15 → exec (.fabGracefulEnd l) s = .next s)) ∧
  ∀ (l : Nat) (s : State), s.isLane l = true → (s.lane l).state = .inService →
    (∃ t, exec (.phaseWanderExceeded l) s = .next t ∧ EntersNext l .down 8 s t) ∧
    (LaneSilent s l → ∃ t, exec (.linkLost l) s = .next t ∧ EntersNext l .down 6 s t) ∧
    (¬LaneSilent s l → LaneErrs s l (s.now + 1) → ∃ t, exec (.linkLost l) s = .next t ∧ EntersNext l .down 7 s t) ∧
    (¬LaneSilent s l → ¬LaneErrs s l (s.now + 1) → exec (.linkLost l) s = .next s)) ∧
  (
  ∀ (l : Nat) (s : State), (s.lane l).state ≠ .disabled →
    let x := s.lane l
    let t := s.laneTick l
    let ev := Reg.fabEvents (l / 128)
    let ctl := Reg.fabLaneCtl (l / 128) (l % 128)
    (t.lane l).inSpray = t.laneUsable l ∧ OnlyLane l s t ∧
    (LaneLeft s l →
      (∀ st c, x.due = some (st, c) → st = .aligning ∨ st = .testing ∨ st = .inService →
        (t.lane l).state = st ∧ (t.lane l).due = none ∧ (t.lane l).errs = [] ∧ (t.lane l).testTicks = 0 ∧
        (st = .aligning → (t.lane l).last16 = []) ∧ (st = .inService → SetsBit ev 2 s t)) ∧
      (x.due = some (.training, 9) → (t.lane l).state = .training ∧ (t.lane l).cause = 9 ∧ bit (t.reg ev) 3 = true) ∧
      (x.due = some (.down, 8) → LaneDown l 8 s t) ∧
      (∀ c, (x.due = some (.down, c) ∧ c ≠ 8) ∨ (x.due = none ∧ x.state = .inService ∧ c ≠ 0 ∧ s.lossCause l s.now = c) →
        (∀ k ∈ s.core.ctx, k.2.gap = none) → s.dcp.notices.length < 1023 →
        LaneDown l c s t ∧ bit (t.reg ev) 1 = true ∧ bit (t.reg Reg.coreEvents) 2 = true ∧
        s.now + bits (s.cfg (Reg.fabLoss (l / 128))) 23 16 + bits (s.cfg Reg.coreReseq) 23 16 ≤ t.core.fabEnd ∧
        (∃ n ∈ t.dcp.notices, n.type = 0x0023 ∧ n.ns = nsOf (s.oAt 0) ∧ n.body = beBytes 2 l ++ [BitVec.ofNat 8 c, 0]) ∧
        ∃ e, t.vigil.log.getLast? = some e ∧ e.event = 0x0011 ∧ e.object.toNat = l) ∧
      (x.due = none → x.state = .down → (t.lane l).state = .training ∧ (t.lane l).cause = x.cause) ∧
      (x.due = none → x.state = .testing →
        (1023 ≤ x.testTicks → (t.lane l).state = .inService ∧ (t.lane l).cause = 0 ∧ SetsBit ev 2 s t) ∧
        (x.testTicks < 1023 → (t.lane l).state = .testing ∧ (t.lane l).testTicks = x.testTicks + 1 ∧ t.regs = s.regs)) ∧
      (x.due = none → x.state = .inService → ¬LaneSilent s l → ¬LaneErrs s l s.now →
        (t.lane l).state = .inService ∧ t = { s with fabric := t.fabric })) ∧
    (s.slips l = true → bit (s.cfg ctl) 0 = true → bit (s.cfg ctl) 1 = false → bit (s.cfg ctl) 2 = false → s.laneEn l = true →
      x.due = none → x.graceful = none →
      (t.lane l).slip = x.slip + 1 ∧ (t.lane l).last16 = [] ∧ bit (t.reg ctl) 0 = false) ∧
    (s.laneEn l = true → bit (s.cfg ctl) 2 = true → (t.lane l).state = .training ∧ (t.lane l).cause = x.cause ∧ bit (t.reg ctl) 2 = false) ∧
    (s.laneEn l = false → ¬(x.state = .inService ∧ s.isLane l = true) → (t.lane l).state = .disabled ∧ (t.lane l).cause = x.cause) ∧
    (s.laneEn l = false → s.isLane l = true → x.state = .inService → x.graceful = none → bit (s.cfg ctl) 2 = false →
      (t.lane l).state = .inService ∧ (t.lane l).graceful = some s.now ∧ (t.lane l).inSpray = false))

/-- Link frames, credits and reach (R279 to R281, R293 to R297). The bits of a lane are cut into frames; every frame counts its codewords. While aligning it is only judged; one that
fails is counted, and takes a lane under test back to TRAINING; one that passes gives the partner's READY, and of its cells one with a bad HCRC is counted, one for this device goes to a
plane. CREDIT adds 16 cells for each step of TOTAL, a step back is stale. REACH sets half of the map. CREDIT_RESET discards what is held of its device and starts its totals
again; its answer starts the source's at the current CREDIT_INIT. A refresh sends 64 totals on a usable link. -/
def Obligations.LinkFramesAndCredits : Prop :=
  (∀ (l : Nat) (line : List Byte) (corrected : List (List Nat)) (uncorrectable : BitVec 3) (s : State), s.isLane l = true → line.length = 1024 →
    ((s.lane l).state = .aligning ∨ (s.lane l).state = .testing ∨ (s.lane l).state = .inService) →
    let fec := fecOf corrected uncorrectable
    let x := s.lane l
    let b := s.lineFrom l line
    let f := b.take 8192
    let payload := (linePayload x.partLane f fec).getD []
    let unc := ((List.range 3).filter (fun c => (decodeWordC x.partLane f fec c).isNone)).length
    let cor := ((List.range 3).filter (fun c => (decodeWordC x.partLane f fec c).isSome && decide (fec.getD c .bad ≠ .clean))).length
    let passes := unc = 0 ∧ BitVec.ofNat 32 (beNat (slice0 payload 20 4)) = crc32 polyC (payload.take 20)
    ∃ t, exec (.linkFrameReceive l corrected uncorrectable line) s = .next t ∧
      (b.length < 8192 → t.lane l = { x with
        rx := b
        slip := 0 } ∧ OnlyLane l s t ∧ t = { s with fabric := t.fabric }) ∧
      (8192 ≤ b.length →
      Counts (Reg.fabLaneCwCorr (l / 128) (l % 128)) cor s t ∧ Counts (Reg.fabLaneCwUncorr (l / 128) (l % 128)) unc s t ∧
      (x.state = .aligning → (t.lane l).state = .aligning ∧ (t.lane l).rx = b.drop 8192 ∧
        (∃ ok : Bool, (ok = true ↔ passes) ∧ (t.lane l).last16 = (x.last16 ++ [ok]).drop (x.last16.length + 1 - 16)) ∧
        (t.lane l).commas = (if s.compact l = false ∧ f.take 128 = commaWord then x.commas + 1 else 0) ∧
        t.core = s.core ∧ t.out = s.out) ∧
      (x.state ≠ .aligning → ¬passes → Counts (Reg.fabLaneChkFail (l / 128) (l % 128)) 1 s t ∧ t.core = s.core ∧
        (t.lane l).state = x.state ∧ (x.state = .testing → (t.lane l).due = some (.training, 9))) ∧
      (x.state ≠ .aligning → passes → payload.getD 6 0 = 0 → payload.getD 12 0 = 0 →
        (t.lane l).state = x.state ∧ (t.lane l).partReady = bit (payload.getD 0 0) 7 ∧ (t.lane l).passed = true ∧
        ((payload.getD 4 0).toNat < 32 → t.core = s.core) ∧
        (bit (payload.getD 4 0) 7 = true → (payload.getD 4 0).toNat / 32 % 4 = 0 →
          let c := slice0 payload 24 272
          let h := fun i => (c.getD i 0).toNat
          (BitVec.ofNat 16 (256 * h 14 + h 15) ≠ crc16 (c.take 14) →
            Counts (Reg.fabLaneHcrc (l / 128) (l % 128)) 1 s t ∧ t.core = s.core) ∧
          (BitVec.ofNat 16 (256 * h 14 + h 15) = crc16 (c.take 14) → h 7 = 0 → h 6 % 64 = s.devId → x.state = .inService →
            s.flowing = true → s.core.spray ≠ 0 → (∀ p, (s.plane p).taken < 625) → s.core.held = [] →
            ∃ p cell, (t.plane p).q = (s.plane p).q ++ [cell] ∧ bit s.core.spray p = true ∧ (∀ i, i ≠ p → t.plane i = s.plane i) ∧
              cell.first = bit (c.getD 0 0) 7 ∧ cell.last = bit (c.getD 0 0) 6 ∧ cell.tc = h 0 % 8 ∧ cell.seq.toNat = 256 * h 2 + h 3 ∧
              cell.srcDev = h 4 % 64 ∧ cell.srcSl = h 5 / 16 % 8 ∧ cell.dstSl = h 5 % 8 ∧ cell.data = (c.drop 16).take (h 1 + 1)))))) ∧
  (∀ (l : Nat) (target granting : BitVec 6) (slice tc : Fin 8) (total : BitVec 16) (s : State), s.laneTalks l = true →
    let k := 64 * granting.toNat + 8 * slice.val + tc.val
    let c := s.srcCredit k
    (target.toNat ≠ s.devId → exec (.credit l target slice tc total granting) s = .next s) ∧
    (target.toNat = s.devId → c.wait = false → (total - c.last).toNat < 32768 →
      ∃ t, exec (.credit l target slice tc total granting) s = .next t ∧
        t.srcCredit k = ⟨c.avail + 16 * ((total - c.last).toNat : Int), total, false⟩ ∧ (∀ i, i ≠ k → t.srcCredit i = s.srcCredit i) ∧
        t = { s with fabric := t.fabric }) ∧
    (target.toNat = s.devId → c.wait = false → 32768 ≤ (total - c.last).toNat →
      ∃ t, exec (.credit l target slice tc total granting) s = .next t ∧ Counts (Reg.fabStaleCnt (l / 128)) 1 s t ∧
        SetsBit (Reg.fabEvents (l / 128)) 4 s t ∧ OnlyRegs [Reg.fabStaleCnt (l / 128), Reg.fabEvents (l / 128)] s t) ∧
    (target.toNat = s.devId → c.wait = true → total ≠ 0 → exec (.credit l target slice tc total granting) s = .next s) ∧
    (target.toNat = s.devId → c.wait = true → total = 0 →
      ∃ t, exec (.credit l target slice tc total granting) s = .next t ∧
        t.srcCredit k = ⟨16 * (bits (s.cfg (Reg.fabCredit 0)) 31 16 : Int) - 16 * (s.fabric.init : Int), 0, false⟩ ∧
        (∀ i, i ≠ k → t.srcCredit i = s.srcCredit i) ∧ t = { s with fabric := t.fabric })) ∧
  (∀ (l : Nat) (upper : Bool) (map : Word32) (s : State), s.laneTalks l = true →
    ∃ t, exec (.reach l upper map) s = .next t ∧
      ((s.lane l).partFe = true ∧ 4 ≤ (s.lane l).ver →
        (∀ i, i < 64 → bit (t.lane l).reach i =
          if (32 ≤ i ↔ upper = true) then bit map (i % 32) else bit (s.lane l).reach i) ∧
        t.lane l = { s.lane l with reach := (t.lane l).reach } ∧ OnlyLane l s t ∧
        (∀ d, d ∈ t.fabric.gone ↔ d ∈ s.fabric.gone ∨ (d ∈ s.fabric.had ∧ t.usableTo d = [])) ∧ t = { s with fabric := t.fabric }) ∧
      (¬((s.lane l).partFe = true ∧ 4 ≤ (s.lane l).ver) → t = s)) ∧
  (∀ (l : Nat) (target sending : BitVec 6) (s : State), s.laneTalks l = true → target.toNat = s.devId →
    ∃ t, exec (.creditReset l target sending) s = .next t ∧
      (∀ k, t.total k = if k / 64 = sending.toNat then 0 else s.total k) ∧
      (∀ k, (t.reseq k).held = if s.ctxFar k = true ∧ s.ctxDev k = sending.toNat then [] else (s.reseq k).held) ∧
      (∀ k, (t.reseq k).e = (s.reseq k).e) ∧ t.tm = s.tm ∧ t.regs = s.regs) ∧
  ∀ (dev : BitVec 6) (s : State),
    (s.boot.phase.code < 5 ∨ 9 < s.boot.phase.code → exec (.creditRefresh dev) s = .next s) ∧
    (5 ≤ s.boot.phase.code → s.boot.phase.code ≤ 9 → s.usableTo dev.toNat ≠ [] →
      ∃ t l, exec (.creditRefresh dev) s = .next t ∧ l ∈ s.usableTo dev.toNat ∧
        (let resets := if s.fabric.resets.contains dev.toNat then [[3, BitVec.ofNat 8 dev.toNat, 0, 0, 0, BitVec.ofNat 8 s.devId]] else []
         let totals := (List.range 64).map (fun i => [1, BitVec.ofNat 8 dev.toNat, BitVec.ofNat 8 (i / 8 * 16 + i % 8)] ++
           beBytes 2 (s.total (64 * dev.toNat + i)).toNat ++ [BitVec.ofNat 8 s.devId])
         t.lane l = { s.lane l with msgs := (s.lane l).msgs ++ resets ++ totals }) ∧ OnlyLane l s t ∧
        t = { s with
          fabric := t.fabric
          free := t.free })

/-- A link frame that a lane sends is read back as it was made (R276 to R280, R285, R289, R292): whatever the payload, its codewords, scrambled, stuffed and padded to 8,192 bits
behind the comma word or the idle bits, give a partner whose codewords are clean the same 840 bytes. The control word that the device forms passes its check: FLAGS, TICK,
source, SLOTS and both messages stand in it, and the cells of the tick in the first slots. At a boundary a training lane sends its training frame, and a later one the frames
that begin in the tick. The parity's value is free (log 96). -/
def Obligations.SentLinkFramesAreReadBack : Prop :=
  (∀ (lane : Nat) (compact : Bool) (payload : List Byte), payload.length = 840 →
    (lineBits compact lane payload).length = 8192 ∧
    linePayload lane (bitsOf (bytesOfBits 1024 (lineBits compact lane payload))) [.clean, .clean, .clean] = some payload) ∧
  (∀ (l : Nat) (slots msgs : List (List Byte)) (s : State), (∀ c ∈ slots, c.length = 272) → (∀ m ∈ msgs, m.length = 6) → l < 1024 →
    let p := s.framePayload l slots msgs
    p.length = 840 ∧ ctlOk (p.take 24) = true ∧
    bit (p.getD 0 0) 7 = (decide ((s.lane l).state = .inService) && (s.lane l).graceful.isNone) ∧ bits (p.getD 0 0) 6 0 = 0 ∧
    p.getD 1 0 = BitVec.ofNat 8 s.now ∧ beNat (slice0 p 2 2) = 1024 * s.devId + l ∧
    (∀ i, i < 3 → bit (p.getD 4 0) (7 - i) = decide (i < slots.length) ∧
      slice0 p (24 + 272 * i) 272 = slots.getD i (List.replicate 272 0)) ∧
    ∀ i, i < 2 → slice0 p (6 + 6 * i) 6 = msgs.getD i (List.replicate 6 0)) ∧
  ∀ (l : Nat) (s : State),
    ((s.lane l).state = .disabled → s.laneSend l = s) ∧
    ((s.lane l).state = .training → s.laneSend l = { s with out := s.out ++ [.training l
      { dev := s.devId
        lane := l
        fe := false
        minVer := bits (s.cfg (Reg.fabCtl (l / 128))) 11 8
        maxVer := bits (s.cfg (Reg.fabCtl (l / 128))) 19 16
        rate := bits (s.cfg (Reg.fabLaneCfg (l / 128) (l % 128))) 27 26
        compact := bit (s.cfg (Reg.fabCtl (l / 128))) 0
        heard := (s.lane l).partLane }] }) ∧
    ((s.lane l).state ≠ .disabled → (s.lane l).state ≠ .training → (s.lane l).txBits < 8192 →
      let total := 17000 * 2 ^ bits (s.cfg (Reg.fabLaneCfg (l / 128) (l % 128))) 27 26
      ∃ n first, (s.lane l).txBits + 8192 * n = total + first ∧ first < 8192 ∧
        (s.laneSend l).out = s.out ++ (List.range n).map (fun i => Out.link l (bytesOfBits 1024 (lineBits (s.compact l) l
          (s.framePayload l (((s.lane l).slots.drop (3 * i)).take 3) (((s.lane l).msgs.drop (2 * i)).take 2))))) ∧
        (s.laneSend l).lane l = { s.lane l with
          txBits := first
          slots := []
          msgs := (s.lane l).msgs.drop (2 * n) } ∧ OnlyLane l s (s.laneSend l))

namespace Sys2Proof.Spec

open Sys2Proof.Machine

/-! ### The cipher engine (chapter 11) -/

/-- A whole frame that a port holds for its cipher pass: the first of them, in small pools, on a port that mirrors nothing. -/
structure HeldFrame (s : State) (port : Nat) (p : Pkt) (rest : List Pkt) : Prop where
  held  : (s.port port).toCipher = p :: rest
  named : port < 512
  ended : p.ended = true
  good  : p.bad = none
  size  : p.data.length + 4 ≤ 16383
  pools : ∀ b ∈ p.bufs, b.pool < 16

/-- The context that a received frame names: RX_BASE + 4c + AN (R310). -/
def rxContext (s : State) (port : Nat) (f : List Byte) (ch : Nat) : Nat :=
  (s.cfgF (Reg.cipPortSa (port / 64) (port % 64)) 30 16 + 4 * ch + (f.getD 14 0).toNat % 4) % 32768

/-- Why a frame with a good SecTAG is turned away before its ICV is checked, in the order of R310's tests 3 to 6: c is its context,
not a BYPASS one, pn its packet number and n the length of its secure data. -/
def rxRefused (s : State) (c : SaCtx) (f : List Byte) (pn n : Nat) : Option Nat :=
  if ¬(saMode c = 1 ∧ saIn c = true ∧ bits (f.getD 14 0) 3 2 = 3) ∧ ¬(saMode c = 2 ∧ saIn c = true ∧ bits (f.getD 14 0) 3 2 = 0) then some 0x17
  else if saXpn c = false ∧ beNat (slice0 f 16 4) = 0 then some 0x17
  else if (s.saKey c).written = false then some 0x13
  else if saWindow c ≠ 0 ∧ pn + saWindow c < saNext c then some 0x12
  else if saMode c = 1 ∧ n ≤ saOff c then some 0x15
  else none

/-- A held frame, as data and with RX_FLAGS, stands last in the admission FIFO of its slice, stamped; the port holds the rest. -/
def TakenOn (s t : State) (port : Nat) (rest : List Pkt) (data : List Byte) (cls flags : Nat) (dt : Word64) : Prop :=
  ∃ q, Admitted s t (port / 64) q ∧ q.data = data ∧ q.bad = none ∧ Stamped s q (data.length + 4) port cls flags (rxPool s port) dt ∧
    t.port port = { s.port port with toCipher := rest }

/-- The next job at a cipher point of a slice: a good packet, recirculated or of a port that sends; nothing waits for the core, and its
buffers are of real pools. -/
structure NextJob (s : State) (sl : Nat) (j : CipJob) (rest : List CipJob) : Prop where
  first : s.nextCip sl = some j
  rest' : rest = (s.slice sl).cip.erase j
  good  : j.pkt.bad = none
  sends : j.recirc = true ∨ s.sendsNone j.pkt.destPort = false
  none  : s.core.waitHand = []
  pools : ∀ b ∈ j.pkt.bufs, b.pool < 16

/-- The PN that an outbound pass of a context takes: NEXT_PN, or 1 for a MACsec context at 0. -/
def outPn (c : SaCtx) : Nat := if (saMode c = 1 ∨ saMode c = 2) ∧ saNext c = 0 then 1 else saNext c

/-- No PN is left to a context (R312). -/
def Spent (c : SaCtx) : Prop := (saCeil c ≠ 0 ∧ saCeil c < outPn c) ∨ (saXpn c = false ∧ 2 ^ 32 ≤ outPn c)

/-- The job has left its point, and the frame g stands last on the wire of the packet's port. -/
def WentOut (s t : State) (sl : Nat) (j : CipJob) (rest : List CipJob) (g : List Nat) : Prop :=
  (t.slice sl).cip = rest ∧ ∃ q, (t.port j.pkt.destPort).wire = (s.port j.pkt.destPort).wire ++ [q] ∧ q.data = bytesOf g

/-- CIP_SA_CMD of a slice is idle. -/
def Idle (s : State) (sl : Nat) : Prop := bit (s.reg (Reg.cipSaCmd sl)) 31 = false

/-- The operation has ended with a result: GO reads 0. -/
def Result (sl n : Nat) (t : State) : Prop := Idle t sl ∧ t.reg (Reg.cipSaResult sl) = BitVec.ofNat 32 n

/-- A context number in the whole device. -/
def ctxNumber (s : State) (sl : Nat) : Nat := 32768 * sl + bits (s.reg (Reg.cipSaSel sl)) 14 0

end Sys2Proof.Spec

/-- MACsec receive (R310, R311). A port takes the frames it holds one by one. One without a SecTAG passes unchanged with UNTAG_PASS, and is dropped as
SECTAG_BAD without it; a malformed SecTAG, or one of no enabled channel, is dropped too. The context of its channel and AN passes it if it is a BYPASS one, or turns it
away for the first test that fails. A frame whose ICV fails is dropped as TAG_FAIL with its event; a good one is admitted without SecTAG and ICV, with RX_FLAGS[0] = 1, and
NEXT_PN rises above its PN. With RX_CUT the ICV is checked at the end of the frame: a good one ends with the rest of its plaintext, a bad one
leaves no packet in the FIFO. The clauses on GCM follow 802.1AE as the model reads it (logs 29 and 30). -/
def Obligations.ReceivedSecureFramesAreChecked : Prop :=
  (∀ (port : Nat) (p : Pkt) (rest : List Pkt) (dt : Word64) (s : State), HeldFrame s port p rest →
    let sl := port / 64
    let f := p.data
    (beNat (slice0 f 12 2) ≠ 0x88E5 → bit (s.cfg (Reg.cipPortCfg sl (port % 64))) 29 = false →
      ∃ t, exec (.macsecRxPass port dt) s = .next t ∧ DropsAt sl 0x17 1 s t ∧ t.port port = { s.port port with toCipher := rest } ∧
        t.slices = s.slices) ∧
    (beNat (slice0 f 12 2) ≠ 0x88E5 → bit (s.cfg (Reg.cipPortCfg sl (port % 64))) 29 = true →
      ∀ cls, ClassOf s port f cls → RoomFor s port f →
      ∃ t, exec (.macsecRxPass port dt) s = .next t ∧ TakenOn s t port rest f cls 0 dt) ∧
    (beNat (slice0 f 12 2) = 0x88E5 → secTagOk f f.length = false ∨ s.rxChannel port f = none →
      ∃ t, exec (.macsecRxPass port dt) s = .next t ∧ DropsAt sl 0x17 1 s t ∧ t.port port = { s.port port with toCipher := rest } ∧
        t.slices = s.slices) ∧
    ∀ ch, beNat (slice0 f 12 2) = 0x88E5 → secTagOk f f.length = true → s.rxChannel port f = some ch →
      let i := rxContext s port f ch
      let c := s.saCtx sl i
      let pn := fullPn c (beNat (slice0 f 16 4))
      let n := secLen f f.length
      let ks := roundKeys (keyBytes c (s.saKey c).val)
      (saMode c = 0 → ∀ cls, ClassOf s port f cls → RoomFor s port f →
        ∃ t, exec (.macsecRxPass port dt) s = .next t ∧ TakenOn s t port rest f cls 0 dt) ∧
      (∀ code, saMode c ≠ 0 → rxRefused s c f pn n = some code →
        ∃ t, exec (.macsecRxPass port dt) s = .next t ∧ DropsAt sl code 1 s t ∧ t.port port = { s.port port with toCipher := rest } ∧
          t.slices = s.slices ∧ t.cipher = s.cipher ∧ (code = 0x13 → bit (t.reg Reg.ksEvents) 1 = true)) ∧
      (saMode c ≠ 0 → rxRefused s c f pn n = none → macGood c ks (natsOf f) pn (tagLen f) n = false →
        ∃ t, exec (.macsecRxPass port dt) s = .next t ∧ DropsAt sl 0x10 1 s t ∧ t.port port = { s.port port with toCipher := rest } ∧
          t.slices = s.slices ∧ t.cipher = s.cipher ∧ bit (t.reg (Reg.cipEvents sl)) 2 = true) ∧
      (saMode c ≠ 0 → rxRefused s c f pn n = none → macGood c ks (natsOf f) pn (tagLen f) n = true → pn + 1 < 2 ^ 64 →
        let plain := bytesOf (macPlain c ks (natsOf f) pn (tagLen f) n)
        ∀ cls, ClassOf s port plain cls → RoomFor s port plain →
        ∃ t, exec (.macsecRxPass port dt) s = .next t ∧ TakenOn s t port rest plain cls 1 dt ∧
          t.saCtx sl i = (if saNext c < pn + 1 then saSetNext c (pn + 1) else c) ∧
          (∀ k, k ≠ 32768 * sl + i → SMap.find 0 t.cipher.ctx k = SMap.find 0 s.cipher.ctx k))) ∧
  (∀ (port : Nat) (dt : Word64) (s : State), (s.port port).toCipher = [] → exec (.macsecRxPass port dt) s = .next s) ∧
  (∀ (port : Nat) (s : State), (∀ x ∈ s.cipher.icv, x.2.port = port → x.2.ended = false) → exec (.icvCheckDone port) s = .next s) ∧
  ∀ (port : Nat) (w : IcvWait) (s : State), port < 512 →
    s.cipher.icv.find? (fun x => decide (x.2.port = port) && x.2.ended) = some (w.pkt, w) →
    let sl := port / 64
    let ks := roundKeys (keyBytes w.sa w.key)
    let n := secLen w.frame w.frame.length
    let plain := bytesOf (macPlain w.sa ks (natsOf w.frame) w.pn (tagLen w.frame) n)
    let good := secTagOk w.frame w.frame.length && macGood w.sa ks (natsOf w.frame) w.pn (tagLen w.frame) n
    (good = false → ∃ t, exec (.icvCheckDone port) s = .next t ∧ t.cipher.icv = s.cipher.icv.drop w.pkt ∧ t.cipher.ctx = s.cipher.ctx ∧
      (∀ q ∈ (t.slice sl).fifo, q.isOf w.pkt = false) ∧ bit (t.reg (Reg.cipEvents sl)) 2 = true) ∧
    (good = true → w.given ≤ plain.length → (∃ p ∈ (s.slice sl).fifo, p.isOf w.pkt = true ∧ p.ended = false) →
      s.core.transit.find? (fun t => t.more && decide (t.pkt.id = w.pkt)) = none → s.core.waitHand = [] →
      HasCells s (rxPool s port) (port / 128) ((plain.length + 4 - 256 + 255) / 256) →
      ∃ t bs, exec (.icvCheckDone port) s = .next t ∧ t.cipher.icv = s.cipher.icv.drop w.pkt ∧
        TookCells s t (rxPool s port) (port / 128) ((plain.length + 4 - 256 + 255) / 256) 0 bs ∧
        (s.saCtx sl w.ctx = w.sa → saMode w.sa = 1 ∨ saMode w.sa = 2 → saIn w.sa = true → w.pn + 1 < 2 ^ 64 →
          t.saCtx sl w.ctx = if saNext w.sa < w.pn + 1 then saSetNext w.sa (w.pn + 1) else w.sa) ∧
        (t.slice sl).fifo = (s.slice sl).fifo.map (fun p =>
          if p.isOf w.pkt = true then
            { (if p.ended then p else { p with
              data := p.data ++ plain.drop w.given
              ended := true
              bufs := p.bufs ++ (if p.isCopy then [] else bs) }) with byp := [] }
          else p))

/-- Outbound passes (R312 to R314). A stopped context drops its frame as PN_EXHAUSTED. One whose PN would pass its ceiling, or 32 bits without XPN, stops: STOPPED, event, notice and
drop. Otherwise the PN is consumed whatever follows, and crossing PN_WARN is told; a frame without a key, or that cannot be protected, is dropped under its reason, and a
protected one goes to the wire of its port. PN 2^64−1 is the last (log 94). An inbound ESP pass drops a packet that fails a test under its reason; one that passes is opened. The sequence number of each whose ICV
is right enters the replay state. -/
def Obligations.OutboundAndEspPasses : Prop :=
  (∀ (slice : Fin 8) (dt : Word64) (j : CipJob) (rest : List CipJob) (i : Nat) (esp : Bool) (s : State), NextJob s slice.val j rest →
    s.dcp.notices.length < 1023 →
    s.nextPass slice.val j = (if esp = true then CipPass.esp i else CipPass.mac i) → saIn (s.saCtx slice.val i) = false →
    let sl := slice.val
    let c := s.saCtx sl i
    let pn := outPn c
    let f := natsOf j.pkt.data
    let key := keyBytes c (s.saKey c).val
    let sealed := if esp = true then espSeal c key f (j.pkt.hdrOff (saF c 1 31 27)) (j.pkt.hdrOff (saF c 1 26 22)) pn else macSeal c key f pn
    (bit c 31 = true → ∃ t, exec (.outboundPass ⟨slice, dt⟩) s = .next t ∧ DropsAt sl 0x14 1 s t ∧ (t.slice sl).cip = rest ∧ t.cipher = s.cipher) ∧
    (bit c 31 = false → Spent c → ∃ t, exec (.outboundPass ⟨slice, dt⟩) s = .next t ∧ DropsAt sl 0x14 1 s t ∧ (t.slice sl).cip = rest ∧
      t.saCtx sl i = setBits c 31 31 1 ∧ bit (t.reg (Reg.cipEvents sl)) 1 = true ∧
      ∃ m ∈ t.dcp.notices, m.type = 0x0031 ∧ m.body = [BitVec.ofNat 8 sl, 0] ++ beBytes 2 i ++ beBytes 8 pn) ∧
    (bit c 31 = false → ¬Spent c → pn = 2 ^ 64 - 1 → ∃ t, exec (.outboundPass ⟨slice, dt⟩) s = .next t ∧
      t.saCtx sl i = setBits (saSetNext c (pn + 1)) 31 31 1 ∧ bit (t.reg (Reg.cipEvents sl)) 1 = true) ∧
    (bit c 31 = false → ¬Spent c → pn < 2 ^ 64 - 1 →
      ((s.saKey c).written = false →
        ∃ t, exec (.outboundPass ⟨slice, dt⟩) s = .next t ∧ DropsAt sl 0x13 1 s t ∧ (t.slice sl).cip = rest ∧
          t.saCtx sl i = saSetNext c (pn + 1) ∧ bit (t.reg Reg.ksEvents) 1 = true) ∧
      (∀ code, (s.saKey c).written = true → sealed = .bad code →
        ∃ t, exec (.outboundPass ⟨slice, dt⟩) s = .next t ∧ DropsAt sl code 1 s t ∧ (t.slice sl).cip = rest ∧
          t.saCtx sl i = saSetNext c (pn + 1)) ∧
      (∀ g, (s.saKey c).written = true → sealed = .ok g →
        ∃ t, exec (.outboundPass ⟨slice, dt⟩) s = .next t ∧ t.saCtx sl i = saSetNext c (pn + 1) ∧
          (esp = false → WentOut s t sl j rest g) ∧
          (esp = true → j.recirc = false → j.pkt.saIndex = some i → bit (s.cfg (Reg.cipPortCfg sl (j.pkt.destPort % 64))) 28 = false →
            WentOut s t sl j rest g) ∧
          (saWarn c ≠ 0 → saNext c < saWarn c → saWarn c ≤ pn + 1 → bit (t.reg (Reg.cipEvents sl)) 0 = true ∧
            ∃ m ∈ t.dcp.notices, m.type = 0x0030 ∧ m.body = [BitVec.ofNat 8 sl, 0] ++ beBytes 2 i ++ beBytes 8 (pn + 1))))) ∧
  (∀ (slice : Fin 8) (dt : Word64) (j : CipJob) (code : Nat) (s : State), s.nextCip slice.val = some j → s.core.waitHand = [] →
    j.pkt.bad = some code ∨ (j.pkt.bad = none ∧ j.recirc = false ∧ s.sendsNone j.pkt.destPort = true ∧ code = 0x56) →
    exec (.espInboundPass ⟨slice, dt⟩) s = .next s ∧
    ∃ t, exec (.outboundPass ⟨slice, dt⟩) s = .next t ∧ DropsAt slice.val code 1 s t ∧ (t.slice slice.val).cip = (s.slice slice.val).cip.erase j) ∧
  (∀ (slice : Fin 8) (dt : Word64) (s : State), s.nextCip slice.val = none →
    exec (.outboundPass ⟨slice, dt⟩) s = .next s ∧ exec (.espInboundPass ⟨slice, dt⟩) s = .next s) ∧
  ∀ (slice : Fin 8) (dt : Word64) (j : CipJob) (rest : List CipJob) (i : Nat) (s : State), NextJob s slice.val j rest →
    s.nextPass slice.val j = .esp i → saIn (s.saCtx slice.val i) = true →
    let sl := slice.val
    let c := s.saCtx sl i
    let f := natsOf j.pkt.data
    let h := j.pkt.hdrOff (saF c 1 31 27)
    let opened := espOpen c (if (s.saKey c).written = true then some (keyBytes c (s.saKey c).val) else none) f h (j.pkt.hdrOff (saF c 1 26 22))
    exec (.outboundPass ⟨slice, dt⟩) s = .next s ∧
    (∀ code n, opened = (.bad code, n) →
      ∃ t, exec (.espInboundPass ⟨slice, dt⟩) s = .next t ∧ DropsAt sl code 1 s t ∧ (t.slice sl).cip = rest ∧
        t.saCtx sl i = n.elim c (espAccept c) ∧ (∀ k, k ≠ 32768 * sl + i → SMap.find 0 t.cipher.ctx k = SMap.find 0 s.cipher.ctx k) ∧
        (code = 0x13 → bit (t.reg Reg.ksEvents) 1 = true) ∧
        (code = 0x10 → getNat f h 4 = saF c 2 31 0 → bit (t.reg (Reg.cipEvents sl)) 2 = true)) ∧
    (∀ g n, opened = (.ok g, some n) →
      ∃ t, exec (.espInboundPass ⟨slice, dt⟩) s = .next t ∧
        t.saCtx sl i = espAccept c n ∧ (∀ k, k ≠ 32768 * sl + i → SMap.find 0 t.cipher.ctx k = SMap.find 0 s.cipher.ctx k) ∧
        (j.recirc = false → bit (s.cfg (Reg.cipPortCfg sl (j.pkt.destPort % 64))) 28 = false → WentOut s t sl j rest g))

/-- What a MACsec outbound pass makes, the inbound pass of a like context opens (R310, R313). The frame that macSeal answers has EtherType 0x88E5 after its
addresses and a SecTAG that is well-formed for its length, with the PN; a context that agrees in MODE, CONF_OFF and nonce finds its ICV good and gets the first frame back.
The passes follow the model's reading of IEEE 802.1AE (log 30). -/
def Obligations.SealedMacsecFramesOpen : Prop :=
  ∀ (c d : SaCtx) (key f g : List Nat) (pn : Nat), (key.length = 16 ∨ key.length = 32) → 12 ≤ f.length →
    saMode d = saMode c → saOff d = saOff c → macNonce d pn = macNonce c pn → macSeal c key f pn = .ok g →
    let tag := if saB c 0 20 = true then 16 else 8
    beNat (slice0 (bytesOf g) 12 2) = 0x88E5 ∧ g.length = f.length + tag + 16 ∧ g.take 12 = f.take 12 ∧
    tagLen (bytesOf g) = tag ∧ secTagOk (bytesOf g) g.length = true ∧ secLen (bytesOf g) g.length = f.length - 12 ∧
    beNat (slice0 (bytesOf g) 16 4) = pn % 2 ^ 32 ∧ bits ((bytesOf g).getD 14 0) 1 0 = saF c 0 19 18 ∧
    macGood d (roundKeys key) g pn tag (f.length - 12) = true ∧
    macPlain d (roundKeys key) g pn tag (f.length - 12) = f

/-- The host's operations on contexts and keys (R307 to R309, R316 to R318). While GO reads 1 a command is ignored. READ copies the context to the staging words at once;
WRITE and CLEAR make it what the staging words hold, STOPPED cleared, or zero, from the next boundary. An export is left for the next boundary, GO still set.
IMPORT fails with BAD_RECORD on a wrong header, and with KEY_MISSING on an unwritten KEK slot; a clear record of a context makes it the selected one from the next boundary. KEY_COMMIT takes the data registers, zeroed by
it, to the selected slot at the next boundary, and KEY_ERASE leaves it zero and unwritten then. -/
def Obligations.ContextAndKeyOperations : Prop :=
  (∀ (slice : Fin 8) (kek : Fin 4) (target : BitVec 18) (s : State), bit (s.reg (Reg.cipSaCmd slice.val)) 31 = true →
    exec (.cipSaRead slice) s = .next s ∧ exec (.cipSaWrite slice) s = .next s ∧ exec (.cipSaClear slice) s = .next s ∧
    exec (.exportClear slice) s = .next s ∧ exec (.exportWrap slice kek) s = .next s ∧ exec (.importRecord slice target) s = .next s) ∧
  (∀ (slice : Fin 8) (s : State), Idle s slice.val →
    let sl := slice.val
    let n := ctxNumber s sl
    (∃ t, exec (.cipSaRead slice) s = .next t ∧ Result sl 1 t ∧
      (∀ w, w < 48 → t.reg (Reg.cipSaData sl w) = (SMap.find 0 s.cipher.ctx n).extractLsb' (32 * w) 32) ∧
      SameRegsBut (Reg.cipSaCmd sl :: Reg.cipSaResult sl :: (List.range 48).map (Reg.cipSaData sl)) s t ∧ t = { s with regs := t.regs }) ∧
    (∃ t c, exec (.cipSaWrite slice) s = .next t ∧ Result sl 1 t ∧ t.cipher = { s.cipher with ctxNext := s.cipher.ctxNext ++ [(n, c)] } ∧
      (∀ w, w < 48 → c.extractLsb' (32 * w) 32 =
        if w = 0 then s.reg (Reg.cipSaData sl 0) &&& 0x7FFFFFFF else s.reg (Reg.cipSaData sl w)) ∧
      OnlyRegs [Reg.cipSaCmd sl, Reg.cipSaResult sl] { s with cipher := t.cipher } t) ∧
    (∃ t, exec (.cipSaClear slice) s = .next t ∧ Result sl 1 t ∧ t.cipher = { s.cipher with ctxNext := s.cipher.ctxNext ++ [(n, 0)] } ∧
      OnlyRegs [Reg.cipSaCmd sl, Reg.cipSaResult sl] { s with cipher := t.cipher } t) ∧
    (∃ t, exec (.exportClear slice) s = .next t ∧ bit (t.reg (Reg.cipSaCmd sl)) 31 = true ∧
      t.cipher = { s.cipher with cmdNext := s.cipher.cmdNext ++ [(n, 16)] } ∧
      OnlyRegs [Reg.cipSaCmd sl] { s with cipher := t.cipher } t) ∧
    ∀ kek : Fin 4, ∃ t, exec (.exportWrap slice kek) s = .next t ∧ bit (t.reg (Reg.cipSaCmd sl)) 31 = true ∧
      t.cipher = { s.cipher with cmdNext := s.cipher.cmdNext ++ [(n, 20 + kek.val)] } ∧
      OnlyRegs [Reg.cipSaCmd sl] { s with cipher := t.cipher } t) ∧
  (∀ (slice : Fin 8) (target : BitVec 18) (s : State), Idle s slice.val →
    let sl := slice.val
    let r := s.getXfer sl
    let magic := r.getD 0 0 = 0x53 ∧ r.getD 1 0 = 1
    let clear := r.getD 2 0 = 1 ∧ r.getD 4 0 = 0 ∧ r.getD 5 0 = 192
    let wrapped := r.getD 2 0 = 2 ∧ r.getD 4 0 = 0 ∧ r.getD 5 0 = 232
    (¬(magic ∧ (clear ∨ wrapped)) → ∃ t, exec (.importRecord slice target) s = .next t ∧ Result sl 2 t ∧ t.cipher = s.cipher) ∧
    (magic → wrapped → 4 ≤ r.getD 3 0 ∨ (s.keySlot (262144 + r.getD 3 0)).written = false →
      ∃ t, exec (.importRecord slice target) s = .next t ∧ Result sl 4 t ∧ t.cipher = s.cipher) ∧
    (magic → wrapped → r.getD 3 0 < 4 → (s.keySlot (262144 + r.getD 3 0)).written = true →
      let text := kwUnwrap (bytesOfNat 32 (s.keySlot (262144 + r.getD 3 0)).val.toNat) ((r.drop 8).take 232)
      (text = none → ∃ t, exec (.importRecord slice target) s = .next t ∧ Result sl 3 t ∧ t.cipher = s.cipher) ∧
      (∀ x, text = some x → ∃ t c, exec (.importRecord slice target) s = .next t ∧ Result sl 1 t ∧
        bit c 31 = false ∧ bits c 17 0 = target.toNat ∧
        t.cipher = { s.cipher with
          ctxNext := s.cipher.ctxNext ++ [(ctxNumber s sl, c)]
          keyNext := s.cipher.keyNext ++ [(target.toNat, ⟨BitVec.ofNat 256 (natOfBytes (x.drop 192)), true⟩)] })) ∧
    (magic → clear → ∃ t c, exec (.importRecord slice target) s = .next t ∧ Result sl 1 t ∧
      t.cipher = { s.cipher with ctxNext := s.cipher.ctxNext ++ [(ctxNumber s sl, c)] } ∧ bit c 31 = false ∧
      (∀ i, i < 192 → i ≠ 3 → bits c (8 * i + 7) (8 * i) = r.getD (8 + i) 0) ∧ bits c 30 24 = r.getD 11 0 % 128)) ∧
  ∀ (s : State),
    let sel := s.reg Reg.keySlotSel
    let slot := if bit sel 31 = true then 262144 + bits sel 1 0 else bits sel 17 0
    (∃ t k, exec .keyCommit s = .next t ∧ k.written = true ∧
      (∀ i, i < 8 → k.val.extractLsb' (32 * (7 - i)) 32 = SMap.find 0 s.cipher.keyData i) ∧
      t = { s with cipher := { s.cipher with
        keyNext := s.cipher.keyNext ++ [(slot, k)]
        keyData := [] } }) ∧
    ∃ t, exec .keyErase s = .next t ∧ t = { s with cipher := { s.cipher with keyNext := s.cipher.keyNext ++ [(slot, ⟨0, false⟩)] } }

namespace Sys2Proof.Spec

open Sys2Proof.Machine

/-! ### Time (chapter 12) -/

/-- Where domain d stands at the end of a tick: it has added INC_BASE − A at every REFCLK edge of it (R321). -/
def advanced (s : State) (d : Nat) : Word64 :=
  s.dom d + BitVec.ofInt 64 ((s.tickEdges.toNat : Int) * ((s.incBase d : Int) - s.domA d))

/-- An offset steps its domain: STEP_TH is not 0, and the offset is at least that many microseconds (R323). -/
def Steps (t : State) (d : Nat) (e : Word64) : Prop :=
  bits (t.cfg (Reg.timeDServo d)) 15 0 ≠ 0 ∧ bits (t.cfg (Reg.timeDServo d)) 15 0 * 1000 * 2 ^ 32 ≤ e.toInt.natAbs

/-- An offset shifted right, or 0 for a shift of 63. -/
def shifted (e : Word64) (sh : Nat) : Int := if sh = 63 then 0 else e.toInt / 2 ^ sh

/-- A value clamped to ±ADJ_MAX of domain d. -/
def clamped (t : State) (d : Nat) (v : Int) : Int :=
  max (-((t.cfg (Reg.timeDAdjMax d)).toNat : Int)) (min ((t.cfg (Reg.timeDAdjMax d)).toNat : Int) v)

/-- The residue R of a slew at the end of a tick: it has come nearer to 0 by SLEW_PPM at every REFCLK edge, and not past it (R324). -/
def slewed (s : State) : Int :=
  let n : Int := s.tickEdges.toNat * (bits (s.cfg Reg.timeCtl) 3 0 * 27488)
  if 0 ≤ s.time.r then max 0 (s.time.r - n) else min 0 (s.time.r + n)

/-- The length of a tick in 2^-32 ns, an edge of REFCLK every 6.4 ns. -/
def tickSpan (s : State) : Nat := s.tickEdges.toNat * (64 * 2 ^ 32 / 10)

/-- Only the time has changed, and the registers of a list. -/
def OnlyTime (l : List Nat) (s t : State) : Prop :=
  SameRegsBut l s t ∧ t = { s with
    time := t.time
    regs := t.regs }

end Sys2Proof.Spec

/-- Time at a tick boundary (R321, R323, R324, R334). Each domain has advanced by its increment at every REFCLK edge. An armed offset steps the domain, which keeps I, or sets P, I and
A; without SERVO_EN A and I are 0. A slew brings R toward 0 at its rate and not past it, and ends there. A switch that was asked makes the other domain active: with JUMP J grows by the difference (on A0 at the boundary after, KL-13), with
SLEW O does not move. INC_BASE is what was written. An output pin whose ARM was written is scheduled at START, one with ARM = 0 at nothing and low; a pin falls when WIDTH has passed. After a step A is I, clamped (log
47). -/
def Obligations.TimeAdvancesAtTheBoundary : Prop :=
  ∀ (throtN : Bool) (s : State), s.boot.phase = .running → s.boot.stop = none →
    ∃ t, exec (.tickBoundary throtN) s = .next t ∧
      (∀ d, d < 2 →
        let w := Reg.timeDServo d
        (bit (t.cfg w) 31 = false → t.dom d = advanced s d ∧ t.domA d = 0 ∧ t.domI d = 0) ∧
        (bit (t.cfg w) 31 = true → s.domOfs d = none → t.dom d = advanced s d ∧ t.domA d = s.domA d ∧ t.domI d = s.domI d) ∧
        (∀ e, bit (t.cfg w) 31 = true → s.domOfs d = some e → t.domOfs d = none ∧
          (Steps t d e → t.dom d = advanced s d - e ∧ t.domI d = s.domI d ∧ t.domA d = clamped t d (s.domI d) ∧
            bit (t.reg Reg.timeEvents) d = true) ∧
          (¬Steps t d e → t.dom d = advanced s d ∧
            t.domI d = clamped t d (s.domI d + shifted e (bits (t.cfg w) 21 16)) ∧
            t.domA d = clamped t d (shifted e (bits (t.cfg w) 29 24) + t.domI d)))) ∧
      (s.time.slew = true → bit (s.reg Reg.timeCtl) 31 = false → t.time.active = s.time.active ∧ t.time.r = slewed s ∧
        t.time.slew = decide (slewed s ≠ 0) ∧ (slewed s = 0 → bit (t.reg Reg.timeEvents) 2 = true)) ∧
      (s.time.slew = false → s.time.active < 2 → bit (s.reg Reg.timeCtl) 31 = true → s.domOfs 0 = none → s.domOfs 1 = none →
        let a := s.time.active
        let gap := advanced s a - advanced s (1 - a)
        t.time.active = 1 - a ∧ bit (t.reg Reg.timeCtl) 31 = false ∧
        (bit (s.reg Reg.timeCtl) 30 = false → t.time.r = 0 ∧ t.time.slew = false ∧
          (if Config.isA0 = true then t.time.j = s.time.j + s.time.jLate ∧ t.time.jLate = 0 - gap
            else t.time.j = s.time.j + s.time.jLate - gap ∧ t.time.jLate = 0) ∧
          t.oNow = advanced s (1 - a) ∧ bit (t.reg Reg.timeEvents) 2 = true) ∧
        (bit (s.reg Reg.timeCtl) 30 = true → t.time.r = gap.toInt ∧ t.time.slew = decide (gap ≠ 0) ∧
          t.time.j = s.time.j + s.time.jLate ∧ t.time.jLate = 0 ∧
          t.oNow = advanced s a)) ∧
      (∀ d, d < 2 → s.wideHeld = [] →
        t.incBase d = bits (s.reg (Reg.timeDIncNs d)) 7 0 * 2 ^ 32 + (s.reg (Reg.timeDIncFrac d)).toNat) ∧
      ∀ k, k < 4 →
        (bit (t.cfg (Reg.evtPin k 0)) 27 = false → (∀ x, (k, x) ∉ t.time.pulse) ∧ ∀ x, (k, x) ∉ t.time.high) ∧
        (∀ x, s.time.high = [(k, x)] → x ≤ tickSpan s → Out.pin k false ∈ t.out ∧ ∀ y, (k, y) ∉ t.time.high) ∧
        (∀ x, s.time.high = [(k, x)] → tickSpan s < x → bit (t.cfg (Reg.evtPin k 0)) 27 = true → (k, x - tickSpan s) ∈ t.time.high) ∧
        (bit (t.cfg (Reg.evtPin k 0)) 27 = true → k ∈ s.time.arm → (k, t.cfg (Reg.evtPin k 3)) ∈ t.time.pulse)

/-- Offsets, increments and switches (R15, R321, R323 to R325). A write of the ns word arms the offset of both words. A written INC_BASE is not in
force at once. SWITCH_JUMP and SWITCH_SLEW write SWITCH with their MODE; while a slew is in progress SWITCH stays 0. A slew whose R reaches 0 in this
tick ends with SWITCH_DONE, and any other goes on. Event pins and the transmit timestamp queue (R332 to R334). An edge that its pin selects is stamped
with the output timescale; a stamp that was not read is told lost, and NOTICE sends a notice. A write of word 0 with ARM is refused if WIDTH and
PERIOD break their limits. A pin rises when O has reached T, and is to fall WIDTH later, first from a pulse whose fall has passed: a single pulse
leaves nothing scheduled, and a repeated one moves T by whole periods to just ahead of O. A release takes the oldest entries of the queue. -/
def Obligations.DomainsSwitchAndPinsStamp : Prop :=
  (
  (∀ (d : Fin 2) (v : Word32) (s : State),
    (∃ t, exec (.timeOfsWrite d v) s = .next t ∧ t.domOfs d.val = some (v ++ s.reg (Reg.timeDOfsFrac d.val)) ∧
      t.domOfs (1 - d.val) = s.domOfs (1 - d.val) ∧ t.reg (Reg.timeDOfsNs d.val) = v ∧
      SameRegsBut [Reg.timeDOfsNs d.val] s t ∧ (∀ x, x ∈ t.wideHeld ↔ x ∈ s.wideHeld ∧ x.1 ≠ Reg.timeDOfsFrac d.val) ∧
      t = { s with
        regs := t.regs
        wideHeld := t.wideHeld
        time := t.time } ∧
      t.time = { s.time with
        ofs0 := t.time.ofs0
        ofs1 := t.time.ofs1 }) ∧
    ∃ t, exec (.timeIncWrite d v) s = .next t ∧ t.reg (Reg.timeDIncNs d.val) = v &&& 0xFF ∧ t.incBase d.val = s.incBase d.val ∧
      (∀ x, x ∈ t.wideHeld ↔ x ∈ s.wideHeld ∧ x.1 ≠ Reg.timeDIncFrac d.val) ∧ SameRegsBut [Reg.timeDIncNs d.val] s t ∧
      t = { s with
        regs := t.regs
        wideHeld := t.wideHeld }) ∧
  (∀ s : State,
    let written := fun (mode : Bool) (t : State) => bit (t.reg Reg.timeCtl) 31 = !s.time.slew ∧ bit (t.reg Reg.timeCtl) 30 = mode ∧
      bits (t.reg Reg.timeCtl) 3 0 = bits (s.reg Reg.timeCtl) 3 0 ∧ OnlyRegs [Reg.timeCtl] s t
    (∃ t, exec .switchJump s = .next t ∧ written false t) ∧ ∃ t, exec .switchSlew s = .next t ∧ written true t) ∧
  ∀ s : State,
    let last := s.time.slew = true ∧ s.time.r.natAbs ≤ s.tickEdges.toNat * (bits (s.cfg Reg.timeCtl) 3 0 * 27488)
    (last → ∃ t, exec .slewDone s = .next t ∧ t.time = { s.time with slew := false } ∧
      SetsBit Reg.timeEvents 2 s t ∧ OnlyTime [Reg.timeEvents] s t) ∧
    (¬last → exec .slewDone s = .next s)) ∧
  (
  (∀ (pin : Fin 16) (rising : Bool) (dt : Word64) (s : State),
    let w := s.cfg (Reg.evtPin pin.val 0)
    let stamps := bit w 31 = true ∧ ¬(pin.val < 4 ∧ bit w 28 = true) ∧
      ((bits w 30 29 = 0 ∧ rising = true) ∨ (bits w 30 29 = 1 ∧ rising = false) ∨ bits w 30 29 = 2)
    (bits w 30 29 < 3 → ¬stamps → exec (.evtEdge pin rising dt) s = .next s) ∧
    (stamps → s.dcp.notices.length < 1024 →
      let was := s.reg (Reg.evtPin pin.val 2)
      let sub := (s.oAt dt).toNat / 2 ^ 24 % 256
      ∃ t, exec (.evtEdge pin rising dt) s = .next t ∧ t.reg (Reg.evtPin pin.val 1) = nsOf (s.oAt dt) ∧
        bit (t.reg (Reg.evtPin pin.val 2)) 31 = true ∧ bit (t.reg (Reg.evtPin pin.val 2)) 30 = (bit was 31 || bit was 30) ∧
        bit (t.reg (Reg.evtPin pin.val 2)) 29 = rising ∧ bits (t.reg (Reg.evtPin pin.val 2)) 7 0 = sub ∧
        (bit was 31 = true → SetsBit Reg.timeEvents 3 s t) ∧ (bit was 31 = false → t.reg Reg.timeEvents = s.reg Reg.timeEvents) ∧
        (bit w 26 = false → t.dcp = s.dcp) ∧
        (bit w 26 = true → ∃ n : Notice, t.dcp.notices = s.dcp.notices ++ [n] ∧ n.type = 0x0041 ∧ n.ns = nsOf (s.oAt dt) ∧
          n.body = [BitVec.ofNat 8 pin.val, if rising = true then 1 else 0, BitVec.ofNat 8 sub, 0] ++ beBytes 4 (nsOf (s.oAt dt)).toNat) ∧
        SameRegsBut [Reg.evtPin pin.val 1, Reg.evtPin pin.val 2, Reg.timeEvents] s t ∧
        t = { s with
          regs := t.regs
          dcp := t.dcp })) ∧
  (∀ (pin : Fin 4) (v : Word32) (s : State),
    let width := bits (s.reg (Reg.evtPin pin.val 4)) 23 0
    let period := bits (s.reg (Reg.evtPin pin.val 5)) 30 0
    let legal := 8 ≤ width ∧ (period = 0 ∨ width < period)
    (bit v 27 = true → ¬legal → exec (.evtArm pin v) s = .next s) ∧
    (bit v 27 = false ∨ legal → ∃ t, exec (.evtArm pin v) s = .next t ∧ t.reg (Reg.evtPin pin.val 0) = v &&& 0xFC000000 ∧
      OnlyTime [Reg.evtPin pin.val 0] s t ∧
      t.time = { s.time with arm := s.time.arm ++ if bit v 27 = true then [pin.val] else [] })) ∧
  (∀ (pin : Fin 4) (dt : Word64) (s : State),
    (s.time.pulse.find? (fun x => x.1 == pin.val) = none → exec (.evtPulse pin dt) s = .next s) ∧
    ∀ at', s.time.pulse.find? (fun x => x.1 == pin.val) = some (pin.val, at') →
      let o := nsOf (s.oAt dt)
      let period := bits (s.cfg (Reg.evtPin pin.val 5)) 30 0
      (bit (s.cfg (Reg.evtPin pin.val 0)) 28 = false ∨ 2 ^ 31 ≤ (o - at').toNat → exec (.evtPulse pin dt) s = .next s) ∧
      (bit (s.cfg (Reg.evtPin pin.val 0)) 28 = true → (o - at').toNat < 2 ^ 31 →
        let edges := (if s.time.high.any (fun x => x.1 == pin.val && decide (x.2 ≤ dt.toNat)) = true then [Out.pin pin.val false] else []) ++
          [Out.pin pin.val true]
        let high := (s.time.high.drop pin.val).insert pin.val (dt.toNat + bits (s.cfg (Reg.evtPin pin.val 4)) 23 0 * 2 ^ 32)
        (period = 0 → ∃ t, exec (.evtPulse pin dt) s = .next t ∧ t.out = s.out ++ edges ∧
          t.time = { s.time with
            pulse := s.time.pulse.drop pin.val
            high := high } ∧
          t = { s with
            out := t.out
            time := t.time }) ∧
        (period ≠ 0 → ∃ t, exec (.evtPulse pin dt) s = .next t ∧ t.out = s.out ++ edges ∧ t.time.high = high ∧
          (∃ m, (pin.val, at' + BitVec.ofNat 32 (period * (m + 1))) ∈ t.time.pulse ∧
            0 < (at' + BitVec.ofNat 32 (period * (m + 1)) - o).toNat ∧ (at' + BitVec.ofNat 32 (period * (m + 1)) - o).toNat ≤ period) ∧
          t = { s with
            out := t.out
            time := t.time }))) ∧
  ∀ (n : Word32) (s : State), ∃ t, exec (.tsqRelease n) s = .next t ∧ t = { s with time := { s.time with tsq := t.time.tsq } } ∧
    t.time.tsq = s.time.tsq.drop (n.toNat % 128))

namespace Sys2Proof.Spec

open Sys2Proof.Machine

/-! ### Counters and power (chapters 14 and 15) -/

/-- A write of a register that is refused changes nothing, and one that is accepted writes v and nothing else but what acts with it. -/
def RefusedOr (refused : Prop) (i : Instr) (s : State) (then' : State → Prop) : Prop :=
  (refused → exec i s = .next s) ∧ (¬refused → ∃ t, exec i s = .next t ∧ then' t)

/-- KIND and OBJECT of a threshold counter keep their ranges (R361). -/
def ThresholdLegal (w : Word32) : Prop :=
  bits w 31 28 = 0 ∨ bits w 31 28 = 1 ∨ (bits w 31 28 = 2 ∧ bits w 17 0 < 16) ∨ (bits w 31 28 = 3 ∧ bits w 17 0 < 8) ∨
  (bits w 31 28 = 4 ∧ bits w 17 0 = 0)

/-- The Chronicle is on, and a snapshot is due at the boundary that ends this tick (R363). -/
structure SnapshotDue (s : State) : Prop where
  period : bits (s.cfg Reg.chrCfg) 23 0 ≠ 0
  ring   : s.chronRecords (s.cfg Reg.chrCfg) ≠ 0
  count  : s.nextCount.1.toNat % bits (s.cfg Reg.chrCfg) 23 0 = 0

/-- The record at a byte address holds a snapshot under a sequence number (Table 14.3). -/
structure RecordHolds (m : List Host.Cell) (a : Nat) (x : Snap) (seq : Nat) : Prop where
  magic  : leNat (memReadN m a 4) = 0x43524E31
  number : leNat (memReadN m (a + 4) 4) = seq
  tick   : leNat (memReadN m (a + 8) 8) = x.tick.toNat
  ns     : leNat (memReadN m (a + 16) 4) = x.ns.toNat
  dom    : memReadN m (a + 20) 4 = [BitVec.ofNat 8 x.dom, 0, 0, 0]
  since  : leNat (memReadN m (a + 24) 8) = x.since % 2 ^ 64
  thr    : ∀ i, i < 1024 → leNat (memReadN m (a + 0x2000 + 8 * i) 8) = (SMap.find 0 x.thr i).toNat
  ctr    : ∀ i, i < 393216 → leNat (memReadN m (a + 0x4000 + 8 * i) 8) = (SMap.find 0 x.ctr i).toNat
  hist   : ∀ i, i < 131072 → leNat (memReadN m (a + 0x304000 + 8 * i) 8) = (SMap.find 0 x.hist i).toNat

/-- Only the power state has changed, and the registers of a list. -/
def OnlyPower (l : List Nat) (s t : State) : Prop :=
  SameRegsBut l s t ∧ t = { s with
    power := t.power
    regs := t.regs }

/-- MIN_OP in force, OP6 with FIXED (R376). -/
def floorOp (s : State) : Nat := if bit (s.cfg Reg.powCtl) 31 = true then 6 else bits (s.cfg Reg.powCtl) 6 4

/-- A limiter can still lower the operating point: FIXED = 0, and it lies above MIN_OP (R382). -/
def Lowerable (s : State) : Prop := bit (s.cfg Reg.powCtl) 31 = false ∧ floorOp s < s.power.op

/-- An operating point has been reached: no transition is in progress, and where it is the one that the cap limiter's
ceiling asked for, that limiter restores its grant (R374, R383). -/
def Reaches (s t : State) (op : Nat) : Prop :=
  t.power.op = op ∧ t.power.trans = none ∧
  t.power.capGrant = (if s.power.capLowering = true ∧ op ≤ s.power.capCeil then 8 else s.power.capGrant)

/-- The hottest valid sensor, in 1/16 °C. -/
def HottestIs (s : State) (x : Int) : Prop :=
  (∃ j, j < 22 ∧ bit (s.reg (Reg.powTemp j)) 31 = false ∧ ((s.reg (Reg.powTemp j)).extractLsb' 0 16).toInt = x) ∧
  ∀ j, j < 22 → bit (s.reg (Reg.powTemp j)) 31 = false → ((s.reg (Reg.powTemp j)).extractLsb' 0 16).toInt ≤ x

/-- The 64-bit energy of a register pair. -/
def energy (s : State) (ca : Nat) : Nat := (s.reg ca).toNat + 2 ^ 32 * (s.reg (ca + 4)).toNat

/-- The clock gate agent has done: RESULT is set, GO reads 0, and no request is in progress. -/
def GateDone (t : State) (result : Nat) : Prop :=
  t.reg Reg.clkGateResult = BitVec.ofNat 32 result ∧ bit (t.reg Reg.clkGateCmd) 31 = false ∧ t.power.gate = none

end Sys2Proof.Spec

/-- The Chronicle and the threshold counters (R361, R363 to R365). Writes of their registers are refused where the rules say, and otherwise write the register; a threshold
counter starts again. At a boundary a counter whose object lay above N all through the tick has counted all its core cycles, and one that never did none; else some (log 56). A
snapshot is latched at the boundary where it is due, the first after ENABLE without threshold counts (KL-04), and with one still being written it is skipped. Its record is begun: the first word is cleared, a full ring loses its oldest
record. A record that is done holds the snapshot, and CHR_WR_IDX advances. -/
def Obligations.ChronicleAndThresholds : Prop :=
  (∀ (v : Word32) (s : State),
    let v' := v &&& 0x1FFFFFFF
    let p := bits v' 23 0
    RefusedOr (s.boot.phase = .running ∧
        (bits v' 28 24 ≠ bits (s.reg Reg.chrCfg) 28 24 ∨ (1 ≤ p ∧ p ≤ 624) ∨ (p ≠ 0 ∧ s.chronRecords v' = 0)))
      (.chrCfgWrite v) s (fun t => t.reg Reg.chrCfg = v' ∧ OnlyRegs [Reg.chrCfg] s t)) ∧
  (∀ (v : Word32) (s : State),
    RefusedOr ((s.reg Reg.chrWrIdx - s.reg Reg.chrRdIdx).toNat < (v - s.reg Reg.chrRdIdx).toNat)
      (.chrRdIdxWrite v) s (fun t => t.reg Reg.chrRdIdx = v ∧ OnlyRegs [Reg.chrRdIdx] s t)) ∧
  (∀ (n : Fin 1024) (w : Fin 2) (v : Word32) (s : State),
    let v' := if w.val = 0 then v &&& 0xF003FFFF else v
    RefusedOr (s.boot.phase = .running ∧ ¬ThresholdLegal (if w.val = 0 then v' else s.reg (Reg.chrThr n.val 0)))
      (.chrThrWrite n w v) s (fun t => t.reg (Reg.chrThr n.val w.val) = v' ∧ n.val ∈ t.ctrs.thrClear ∧
        SameRegsBut [Reg.chrThr n.val w.val] s t ∧
        t = { s with
          regs := t.regs
          ctrs := { s.ctrs with thrClear := t.ctrs.thrClear } })) ∧
  (∀ (throtN : Bool) (k : Nat) (s : State), s.boot.phase = .running → k < 1024 → bits (s.cfg (Reg.chrThr k 0)) 31 28 ≠ 0 → k ∉ s.ctrs.thrClear →
    ∀ lo hi, s.occupancy (s.cfg (Reg.chrThr k 0)) = some (lo, hi) →
    let lim := (s.cfg (Reg.chrThr k 1)).toNat
    let cycles := 16 * s.power.k - s.power.stretch
    ∃ t n, exec (.tickBoundary throtN) s = .next t ∧ n ≤ cycles ∧ (lim < lo → lo ≤ hi → n = cycles) ∧ (hi ≤ lim → n = 0) ∧
      SMap.find 0 t.ctrs.thr k = SMap.find 0 s.ctrs.thr k + BitVec.ofNat 64 n) ∧
  (∀ (throtN : Bool) (s : State), s.boot.phase = .running → ∃ t, exec (.tickBoundary throtN) s = .next t ∧
    (¬SnapshotDue s → t.ctrs.lastSnap = s.ctrs.lastSnap ∧ (s.ctrs.snap = none → t.ctrs.snap = none)) ∧
    (SnapshotDue s → s.ctrs.snap.isSome = true → Counts Reg.chrSkipCnt 1 s t ∧ bit (t.reg Reg.chrEvents) 1 = true ∧
      t.ctrs.lastSnap = s.ctrs.lastSnap) ∧
    (SnapshotDue s → s.ctrs.snap = none → ∃ x, t.ctrs.snap = some x ∧ x.begun = false ∧ x.tick = s.nextCount.1 ∧
      x.ns = nsOf t.oNow ∧ x.dom = t.time.active ∧ x.hist = s.ctrs.hist ∧ (∀ j, s.ctrShown j = true → SMap.find 0 x.ctr j = ctr s j) ∧
      (∀ l, s.ctrs.lastSnap = some l → l ≤ s.nextCount.1.toNat → x.since = s.nextCount.1.toNat - l) ∧
      (s.ctrs.fresh = true → x.thr = []) ∧ t.ctrs.fresh = false ∧
      t.ctrs.lastSnap = some s.nextCount.1.toNat)) ∧
  (∀ s : State, (∀ x, s.ctrs.snap = some x → x.begun = true) → exec .chronSnapshot s = .next s) ∧
  (∀ (x : Snap) (s : State), s.ctrs.snap = some x → x.begun = false →
    let w := s.cfg Reg.chrCfg
    let full := s.chronRecords w ≤ (s.reg Reg.chrWrIdx - s.reg Reg.chrRdIdx).toNat
    let a := s.recordAt w (s.reg Reg.chrWrIdx).toNat
    s.stacksOk a 4 = true → ∃ t, exec .chronSnapshot s = .next t ∧
      t.ctrs = { s.ctrs with snap := some { x with begun := true } } ∧
      memReadN t.mem a 4 = [0, 0, 0, 0] ∧ (∀ b, b < a ∨ a + 4 ≤ b → memRead t.mem b = memRead s.mem b) ∧
      (full → t.reg Reg.chrRdIdx = s.reg Reg.chrRdIdx + 1 ∧ Counts Reg.chrLapCnt 1 s t ∧ SetsBit Reg.chrEvents 0 s t ∧
        SameRegsBut [Reg.chrRdIdx, Reg.chrLapCnt, Reg.chrEvents] s t) ∧
      (¬full → t.regs = s.regs)) ∧
  (∀ s : State, (∀ x, s.ctrs.snap = some x → x.begun = false) → exec .chronRecordDone s = .next s) ∧
  ∀ (x : Snap) (s : State), s.ctrs.snap = some x → x.begun = true →
    let a := s.recordAt (s.cfg Reg.chrCfg) (s.reg Reg.chrWrIdx).toNat
    (∀ i, i < 257 → s.stacksOk (a + 16384 * i) 16384 = true) →
    ∃ t, exec .chronRecordDone s = .next t ∧ RecordHolds t.mem a x (s.reg Reg.chrWrIdx).toNat ∧
      (∀ b, b < a ∨ a + 4210688 ≤ b → memRead t.mem b = memRead s.mem b) ∧ t.ctrs = { s.ctrs with snap := none } ∧
      t.reg Reg.chrWrIdx = s.reg Reg.chrWrIdx + 1 ∧ SetsBit Reg.chrEvents 2 s t ∧ SameRegsBut [Reg.chrWrIdx, Reg.chrEvents] s t

/-- Operating points (R43, R374 to R377, R399). K moves at most one step a tick, and none before four ticks without a stretch. With the first VDD_CORE
slot the voltage of OP0 is commanded. A read-back lets a raise go on and completes a lower; after 625 ticks without it the slots in question are told,
a raise is given up and no other begins, and a lower is taken as made. POW_CTL keeps FIXED and MIN_OP in RUNNING, and takes DROOP_ARM there only if
every loaded entry still fits. The limiters (R381 to R384). A poll reads every enabled slot, and the third miss in a row is told. A window of a rail
above LIMIT lowers the grant, down to 4, and then the ceiling; 16 windows in a row below 15/16 give the grant back a step. The cap limiter lowers the
ceiling and the grant together above CAP_W, and at the lowest point the grant alone, down to 1, with CAP_FLOOR and its notice once; below the
hysteresis it gives back the grant, then a step of the ceiling. -/
def Obligations.OperatingPointsAndLimiters : Prop :=
  (
  (∀ (throtN : Bool) (s : State), s.coreOn = true →
    ∃ t, exec (.tickBoundary throtN) s = .next t ∧ t.power.k = s.power.nextK ∧ t.power.nextK ≤ t.power.k + 1 ∧ t.power.k ≤ t.power.nextK + 1 ∧
      t.power.freeTicks = (if s.power.stretch = 0 then min 4 (s.power.freeTicks + 1) else 0) ∧
      (t.power.freeTicks < 4 → t.power.nextK = t.power.k)) ∧
  (∀ s : State,
    let due := s.coreOn = true ∧ s.power.coreSlotSeen = false ∧ s.railSlots 0 ≠ [] ∧ s.boot.stop = none
    (due → ∃ t, exec .firstCoreSlot s = .next t ∧
      t.power = { s.power with
        coreSlotSeen := true
        trans := some ⟨0, false, true, 0⟩ } ∧
      t.out = s.out ++ (s.railSlots 0).map (fun r => .avs r (Config.opVoltage 0).toNat) ∧
      t = { s with
        power := t.power
        out := t.out }) ∧
    (¬due → exec .firstCoreSlot s = .next s)) ∧
  (∀ (x : Transition) (s : State), s.power.trans = some x →
    (x.waiting = false → exec .regReadback s = .next s) ∧
    (x.waiting = true → x.raising = true → ∃ t, exec .regReadback s = .next t ∧
      t = { s with power := { s.power with trans := some { x with waiting := false } } }) ∧
    (x.waiting = true → x.raising = false → ∃ t, exec .regReadback s = .next t ∧ Reaches s t x.target ∧ t = { s with power := t.power })) ∧
  (∀ (slots : BitVec 8) (x : Transition) (s : State), s.power.trans = some x →
    let late := (s.railSlots 0).filter (fun r => bit slots r)
    (x.waiting = false ∨ x.age < 625 ∨ late = [] → exec (.regTimeout slots) s = .next s) ∧
    (x.waiting = true → 625 ≤ x.age → late ≠ [] →
      ∃ t, exec (.regTimeout slots) s = .next t ∧ bit (t.reg Reg.powEvents) 4 = true ∧
        (∀ r, r ∈ late → bit (t.reg (Reg.powReg r 3)) 31 = true) ∧
        (∃ r e, r ∈ late ∧ t.vigil.log.getLast? = some e ∧ e.event = 0x0031 ∧ e.object.toNat = r) ∧
        (x.raising = true → t.power = { s.power with
          trans := none
          raiseBlocked := true }) ∧
        (x.raising = false → Reaches s t x.target))) ∧
  (∀ (slots : BitVec 8) (s : State), s.power.trans = none →
    exec .regReadback s = .next s ∧ exec (.regTimeout slots) s = .next s) ∧
  ∀ (v : Word32) (s : State),
    let old := s.reg Reg.powCtl
    let u := 16 * opK (if bit v 31 = true then 6 else bits v 6 4) - 16 - bits (s.reg Reg.almLimit) 31 24
    RefusedOr (s.boot.phase = .running ∧ (bit v 31 ≠ bit old 31 ∨ bits v 6 4 ≠ bits old 6 4 ∨
        (bit v 30 = true ∧ bit old 30 = false ∧
          ∃ k p e, k < 32 ∧ (s.cluster k).state ≠ .failed ∧ (s.cluster k).prog = some p ∧ e ∈ p.entries ∧ e.kind ≠ 0 ∧ u < e.wcet)))
      (.powCtlWrite v) s (fun t => t.reg Reg.powCtl = v &&& 0xC0000777 ∧ t.power = { s.power with raiseBlocked := false } ∧
        OnlyPower [Reg.powCtl] s t)) ∧
  (
  (∀ (volts amps : List (Option (BitVec 16))) (s : State), s.coreOn = true →
    ∃ t, exec (.regulatorPoll volts amps) s = .next t ∧
      (∀ r, r < 8 →
        let on := bit (s.cfg (Reg.powReg r 0)) 31
        (∀ v a, on = true → volts.getD r none = some v → amps.getD r none = some a →
          t.reg (Reg.powReg r 1) = v.zeroExtend 32 ∧ t.reg (Reg.powReg r 2) = a.zeroExtend 32 ∧ SMap.find 0 t.power.missed r = 0) ∧
        (on = true → volts.getD r none = none ∨ amps.getD r none = none →
          t.reg (Reg.powReg r 1) = s.reg (Reg.powReg r 1) ∧ t.reg (Reg.powReg r 2) = s.reg (Reg.powReg r 2) ∧
          SMap.find 0 t.power.missed r = SMap.find 0 s.power.missed r + 1 ∧
          (2 ≤ SMap.find 0 s.power.missed r → bit (t.reg (Reg.powReg r 3)) 30 = true)) ∧
        (on = false → t.reg (Reg.powReg r 1) = s.reg (Reg.powReg r 1) ∧ t.reg (Reg.powReg r 2) = s.reg (Reg.powReg r 2))) ∧
      (∀ i, i < 7 → s.railSlots i ≠ [] →
        (t.rail i).sum = (s.rail i).sum + ((s.railSlots i).map (fun r => bits (t.reg (Reg.powReg r 2)) 15 0)).sum ∧
        (t.rail i).polls = (s.rail i).polls + 1) ∧
      t.power.jobSum = s.power.jobSum + ((List.range 8).map (fun r =>
        if bit (s.reg (Reg.powReg r 0)) 31 = true ∧ bits (s.reg (Reg.powReg r 0)) 2 0 ≤ 1 then
          bits (t.reg (Reg.powReg r 1)) 15 0 * bits (t.reg (Reg.powReg r 2)) 15 0 else 0)).sum ∧
      (s.power.powerPolls < 499 → t.power.powerPolls = s.power.powerPolls + 1 ∧ t.power.powerW = s.power.powerW) ∧
      (499 ≤ s.power.powerPolls → t.power.powerPolls = 0 ∧ t.power.powerSum = 0) ∧
      OnlyPower ((List.range 8).flatMap (fun r => [Reg.powReg r 1, Reg.powReg r 2, Reg.powReg r 3])) s t) ∧
  (∀ (rail : Fin 7) (s : State),
    let x := s.rail rail.val
    let lim := bits (s.cfg (Reg.powRail rail.val)) 15 0
    (x.polls < 4 → exec (.railWindowEnd rail) s = .next s) ∧
    (4 ≤ x.polls → lim ≠ 0 →
      ∃ t, exec (.railWindowEnd rail) s = .next t ∧ (∀ i, i ≠ rail.val → t.rail i = s.rail i) ∧ OnlyPower [Reg.powEvents] s t ∧
        (t.rail rail.val).sum = 0 ∧ (t.rail rail.val).polls = 0 ∧
        (lim * x.polls < x.sum → SetsBit Reg.powEvents 0 s t ∧ (t.rail rail.val).below = 0 ∧
          (4 < x.grant → (t.rail rail.val).grant = x.grant - 1 ∧ (t.rail rail.val).ceil = x.ceil) ∧
          (x.grant ≤ 4 → (t.rail rail.val).grant = x.grant ∧
            (bit (s.cfg Reg.powCtl) 31 = true → (t.rail rail.val).ceil = x.ceil) ∧
            (bit (s.cfg Reg.powCtl) 31 = false → (t.rail rail.val).ceil = max (floorOp s) (min x.ceil s.power.op - 1)))) ∧
        (x.sum ≤ lim * x.polls → t.regs = s.regs ∧
          (15 * lim * x.polls ≤ 16 * x.sum → (t.rail rail.val).below = 0 ∧ (t.rail rail.val).grant = x.grant ∧ (t.rail rail.val).ceil = x.ceil) ∧
          (16 * x.sum < 15 * lim * x.polls →
            (x.below < 15 → (t.rail rail.val).below = x.below + 1 ∧ (t.rail rail.val).grant = x.grant ∧ (t.rail rail.val).ceil = x.ceil) ∧
            (15 ≤ x.below → x.grant < 8 → (t.rail rail.val).grant = x.grant + 1 ∧ (t.rail rail.val).ceil = x.ceil) ∧
            (31 ≤ x.below → 8 ≤ x.grant → x.ceil < 7 → (t.rail rail.val).ceil = x.ceil + 1 ∧ (t.rail rail.val).grant = x.grant))))) ∧
  ∀ s : State, s.coreOn = true → s.dcp.notices.length < 1024 →
    let p := s.power
    let cap := bits (s.cfg Reg.powCap) 15 0
    let hyst := bits (s.cfg Reg.powCap) 31 16
    ∃ t, exec .capCheck s = .next t ∧ SameRegsBut [Reg.powEvents] s t ∧
      (cap = 0 → t.power = { p with
        capCeil := 7
        capGrant := 8
        capLowering := false
        capFloor := false } ∧ t.regs = s.regs) ∧
      (cap ≠ 0 → cap < p.powerW → Lowerable s → t.power = { p with
        capCeil := max (floorOp s) (min p.capCeil p.op - 1)
        capGrant := max 1 (p.capGrant - 1)
        capLowering := true
        capFloor := false } ∧ t.regs = s.regs) ∧
      (cap ≠ 0 → cap < p.powerW → ¬Lowerable s → t.power = { p with
        capGrant := max 1 (p.capGrant - 1)
        capFloor := true } ∧
        (p.capFloor = true → t.regs = s.regs ∧ t.dcp = s.dcp) ∧
        (p.capFloor = false → SetsBit Reg.powEvents 1 s t ∧ ∃ n : Notice, t.dcp.notices = s.dcp.notices ++ [n] ∧ n.type = 0x0050 ∧ n.body = [])) ∧
      (cap ≠ 0 → p.powerW ≤ cap → cap ≤ p.powerW + hyst → t = s) ∧
      (cap ≠ 0 → p.powerW + hyst < cap →
        (p.capGrant < 8 → t.power = { p with
          capGrant := 8
          capFloor := false }) ∧
        (8 ≤ p.capGrant → t.power = { p with
          capCeil := min 7 (p.capCeil + 1)
          capFloor := false })))

/-- Heat, energy and clock gating (R387 to R389, R391 to R393). A sensor out of range or silent has failed, and is told; the others show what they read. At THERM_LIMIT the thermal limiter lowers the
operating point, then the grant. Two samples of 115 °C stop the core. The energy that the VDD_CORE and VDD_SRAM slots measured in a millisecond goes to the clusters by the words they issued, or to POW_JOB_IDLE. A block whose agent has
quiesced is gated, or fails if it is in use again; one that takes 64 ticks answers busy; an ungate always succeeds. -/
def Obligations.HeatEnergyAndClockGating : Prop :=
  (∀ (temps : List (Option (BitVec 16))) (s : State), s.boot.phase ≠ .coldWait →
    ∃ t, exec (.sensorSample temps) s = .next t ∧ ∀ j, j < 22 →
      (bit (s.reg (Reg.powTemp j)) 31 = true → t.reg (Reg.powTemp j) = s.reg (Reg.powTemp j)) ∧
      (∀ v, bit (s.reg (Reg.powTemp j)) 31 = false → temps.getD j none = some v → -640 ≤ v.toInt → v.toInt ≤ 2400 →
        t.reg (Reg.powTemp j) = v.zeroExtend 32 ∧ bit t.power.hot j = decide (1840 ≤ v.toInt) ∧
        (1840 ≤ v.toInt → bit s.power.hot j = true → t.power.hotDue = true)) ∧
      (bit (s.reg (Reg.powTemp j)) 31 = false → (∀ v, temps.getD j none = some v → v.toInt < -640 ∨ 2400 < v.toInt) →
        bit (t.reg (Reg.powTemp j)) 31 = true ∧ bit (t.reg Reg.powEvents) 3 = true ∧ bit t.vigil.reasons 6 = true)) ∧
  (∀ (x : Int) (s : State), s.coreOn = true → HottestIs s x →
    let limit : Int := 16 * bits (s.cfg Reg.powTherm) 7 0
    let hyst : Int := 16 * bits (s.cfg Reg.powTherm) 15 8
    let p := s.power
    ∃ t, exec .thermalCheck s = .next t ∧ OnlyPower [Reg.powEvents] s t ∧
      (limit ≤ x → SetsBit Reg.powEvents 2 s t ∧
        (Lowerable s → t.power.thermCeil = max (floorOp s) (min p.thermCeil p.op - 1) ∧ t.power.thermGrant = p.thermGrant) ∧
        (¬Lowerable s → t.power.thermGrant = max 1 (p.thermGrant - 1) ∧ t.power.thermCeil = p.thermCeil)) ∧
      (x < limit → limit < x + hyst → t.regs = s.regs ∧ t.power.thermGrant = p.thermGrant ∧ t.power.thermCeil = p.thermCeil) ∧
      (x < limit → x + hyst ≤ limit → p.thermOver = false → t.regs = s.regs ∧
        (p.thermGrant < 8 → t.power.thermGrant = p.thermGrant + 1 ∧ t.power.thermCeil = p.thermCeil) ∧
        (8 ≤ p.thermGrant → t.power.thermGrant = p.thermGrant ∧ t.power.thermCeil = min 7 (p.thermCeil + 1)))) ∧
  (∀ s : State,
    let due := s.power.hotDue = true ∧ 3 ≤ s.boot.phase.code ∧ s.boot.stop ≠ some .thermal ∧ s.boot.haltedBy ≠ some .thermal
    (due → s.boot.phase ≠ .halted → ∃ t e, exec .thermShutdown s = .next t ∧ t.boot.stop = some .thermal ∧ bit (t.reg Reg.clkEvents) 6 = true ∧
      t.vigil.state = 2 ∧ t.vigil.log.getLast? = some e ∧ e.event = 0x0033 ∧ SameMem s t) ∧
    (due → s.boot.phase = .halted → ∃ t, exec .thermShutdown s = .next t ∧ t.boot = { s.boot with haltedBy := some .thermal } ∧
      bit (t.reg Reg.clkEvents) 6 = true) ∧
    (¬due → exec .thermShutdown s = .next s)) ∧
  (∀ (dt : Word64) (s : State),
    let total := (s.power.words.map (fun x => x.2)).sum
    let mj := s.power.jobSum / 2000000
    (total = 0 → ∃ t, exec (.jobEnergyUpdate dt) s = .next t ∧
      energy t (Reg.powJobIdle 0) = (energy s (Reg.powJobIdle 0) + mj) % 2 ^ 64 ∧ t.power = { s.power with
        words := []
        jobSum := 0 } ∧
      OnlyPower [Reg.powJobIdle 0, Reg.powJobIdle 0 + 4] s t) ∧
    ∀ k n, k < 32 → s.power.words = [(k, n)] → n ≠ 0 → ∃ t, exec (.jobEnergyUpdate dt) s = .next t ∧
      energy t (Reg.powJob k 0) = (energy s (Reg.powJob k 0) + mj) % 2 ^ 64 ∧ t.power = { s.power with
        words := []
        jobSum := 0 } ∧
      OnlyPower [Reg.powJob k 0, Reg.powJob k 0 + 4] s t) ∧
  (∀ s : State, s.power.gate = none →
    exec .clkGate s = .next s ∧ exec .clkUngate s = .next s ∧ exec .gateBusy s = .next s) ∧
  ∀ (node block age : Nat) (s : State), s.power.gate = some (256 * node + block, age) → 4 ≤ node → node < 8 → block < 256 →
    let gating := bit (s.reg Reg.clkGateCmd) 0
    let done := fun (result : Nat) (more : List Nat) (t : State) =>
      GateDone t result ∧ t.power = { s.power with gate := none } ∧ SameRegsBut (Reg.clkGateResult :: Reg.clkGateCmd :: more) s t
    (gating = false → exec .clkGate s = .next s ∧ exec .gateBusy s = .next s ∧
      ∃ t, exec .clkUngate s = .next t ∧ done 1 [Reg.clkGated (node - 4)] t ∧ bit (t.reg (Reg.clkGated (node - 4))) (gateBit block) = false) ∧
    (gating = true → exec .clkUngate s = .next s ∧
      (s.gateable node block = some true → ∃ t, exec .clkGate s = .next t ∧ done 1 [Reg.clkGated (node - 4)] t ∧
        SetsBit (Reg.clkGated (node - 4)) (gateBit block) s t) ∧
      (s.gateable node block ≠ some true → ∃ t, exec .clkGate s = .next t ∧ done 4 [] t) ∧
      (age < 64 → exec .gateBusy s = .next s) ∧
      (64 ≤ age → ∃ t, exec .gateBusy s = .next t ∧ done 2 [Reg.clkEvents] t ∧ SetsBit Reg.clkEvents 5 s t))

namespace Sys2Proof.Spec

open Sys2Proof.Machine

/-! ### Service life (chapter 17) and words of the instruction chapter -/

/-- The events of Table 17.5 that a device detects. -/
def vigilTable : List Nat :=
  [0x0001, 0x0002, 0x0003, 0x0010, 0x0011, 0x0012, 0x0020, 0x0021, 0x0022, 0x0023, 0x0030, 0x0031, 0x0032, 0x0033, 0x0034, 0x0040]

/-- The replace reason that an event raises by itself (Table 17.2): its bit. -/
def reasonTable : List (Nat × Nat) := [(0x0002, 0), (0x0020, 2), (0x0022, 3), (0x0040, 4), (0x0030, 5), (0x0032, 6)]

/-- The latest entry of the Vigil log is of an event and an object at this tick, and names Vigil's state after it (R418). -/
def Logged (s t : State) (event object : Nat) : Prop :=
  ∃ e, t.vigil.log.getLast? = some e ∧ e.event.toNat = event ∧ e.object.toNat = object ∧ e.tick = s.alm.tick ∧ e.state = t.vigil.state

/-- Of the ticks recorded in the last 2^20 with one more now, at least UECC_LIMIT. -/
def TooMany (s : State) (l : List Nat) : Prop :=
  bits (s.cfg Reg.vigLimit) 7 0 ≠ 0 ∧ bits (s.cfg Reg.vigLimit) 7 0 ≤ (l.filter (fun t => decide (s.now < t + 2 ^ 20))).length + 1

/-- The instructions of Table 17.9. -/
def tapTable : List Nat := [0x00, 0x01, 0x02, 0x04, 0x05, 0x08, 0x09, 0xFF]

/-- Bytes of an answer with a PEC byte where one is clocked: CRC-8 over the address bytes, the command and the data (log 102). -/
def withPec (pec : Bool) (command : Byte) (l : List Byte) : List Byte :=
  if pec = true then l ++ [([0xBC, command, 0xBD] ++ l).foldl pecStep 0] else l

/-- The answer that the SMBus target puts out for a word. -/
def SmWord (s : State) (command : BitVec 8) (n : Nat) : Prop :=
  ∀ pec : Bool, exec (.smbusTransaction command ⟨false, pec, []⟩) s = .next { s with out := s.out ++
    [.smbus (withPec pec command [BitVec.ofNat 8 n, BitVec.ofNat 8 (n / 256)])] }

end Sys2Proof.Spec

/-- Vigil (R413, R414, R416, R418). An event of Table 17.5 is logged with its object, moves Vigil's state, raises its reason and is told by a notice;
what is no such event changes nothing. The oldest entry waiting for the life log is burnt. A control-channel error that is corrected is counted and
shown; another counts, is logged, and with UECC_LIMIT of them in 2^20 ticks raises ECC_REPEAT. An ODB cell that SECDED corrects is counted; an
uncorrectable one stomps the frame that holds it, wherever the frame waits. The SMBus target and the TAP (R2, R353, R424). From AON_UP on the target
answers the words and blocks of its commands, low byte first, with PEC where it is clocked, and NACKs every other command, a write beyond the command
byte and a failed sensor; before that it does nothing. A public TAP instruction is selected, and in TEST_MODE no other is; with TEST_MODE_N high any
other acts as BYPASS. What the TAP does under reset with TEST_MODE_N low is the model's choice. -/
def Obligations.VigilSmbusAndTap : Prop :=
  (
  (∀ (event : BitVec 16) (object : Word32) (dt : Word64) (s : State),
    (s.coreOn = false ∨ event.toNat ∉ vigilTable → exec (.vigilEvent event object dt) s = .next s) ∧
    (s.coreOn = true → event.toNat ∈ vigilTable → s.dcp.notices.length < 1024 → s.vigil.log.length ≤ 256 →
      let fails := event = 0x0033 ∨ (event = 0x0010 ∧ s.core.spray = 0) ∨ (event = 0x0032 ∧ s.blind = true)
      ∃ t, exec (.vigilEvent event object dt) s = .next t ∧ Logged s t event.toNat object.toNat ∧
        (fails → t.vigil.state = 2) ∧
        (¬fails → t.vigil.state = if t.vigil.reasons ≠ 0 ∧ s.vigil.state = 0 then 1 else s.vigil.state) ∧
        (∀ b, (event.toNat, b) ∈ reasonTable → bit t.vigil.reasons b = true) ∧
        (event = 0x0010 → 2 ≤ s.planesDown → bit t.vigil.reasons 1 = true) ∧
        (∀ b, b < 7 → bit s.vigil.reasons b = true → bit t.vigil.reasons b = true) ∧
        bit (t.reg Reg.vigEvents) 0 = true ∧ SameRegsBut [Reg.vigEvents] s t ∧
        (∃ n : Notice, t.dcp.notices = s.dcp.notices ++ [n] ∧ n.type = 0x0060 ∧ n.ns = nsOf (s.oAt dt) ∧
          n.body = [BitVec.ofNat 8 t.vigil.state, 0] ++ beBytes 2 event.toNat ++ beBytes 4 object.toNat) ∧
        t = { s with
          vigil := t.vigil
          regs := t.regs
          dcp := t.dcp })) ∧
  (∀ s : State, (s.vigil.burning = [] → exec .lifeLogBurn s = .next s) ∧
    ∀ e l, s.vigil.burning = e :: l → ∃ t, exec .lifeLogBurn s = .next t ∧
      t = { s with vigil := { s.vigil with
        life := s.vigil.life ++ [e]
        burning := l } }) ∧
  (∀ (quad : Fin 4) (s : State),
    (s.boot.nodesReady = false → ∀ c : Bool, exec (.ctrlUecc ⟨quad, c⟩) s = .next s) ∧
    (s.boot.nodesReady = true → ∃ t, exec (.ctrlUecc ⟨quad, true⟩) s = .next t ∧ Counts (Reg.qctlLinkErrCnt quad.val) 1 s t ∧
      SetsBit (Reg.qctlStatus quad.val) 1 s t ∧ OnlyRegs [Reg.qctlLinkErrCnt quad.val, Reg.qctlStatus quad.val] s t) ∧
    (s.boot.nodesReady = true → s.vigil.log.length ≤ 255 →
      ∃ t, exec (.ctrlUecc ⟨quad, false⟩) s = .next t ∧ Counts (Reg.vigCtrlUncorr quad.val) 1 s t ∧
        (∃ e ∈ t.vigil.log, e.event = 0x0012 ∧ e.object.toNat = quad.val) ∧
        (TooMany s (SMap.find [] s.vigil.ctrlTick quad.val) → bit t.vigil.reasons 4 = true ∧ Logged s t 0x0040 (16 + quad.val)) ∧
        SameRegsBut [Reg.vigCtrlUncorr quad.val, Reg.vigEvents, Reg.dcpNoticeLost, Reg.dcpEvents] s t ∧ SameMem s t)) ∧
  ∀ (cell : Nat) (s : State), (s.coreOn = false ∨ 1310720 ≤ cell → ∀ c : Bool, exec (.odbUecc ⟨cell, c⟩) s = .next s) ∧
    (s.coreOn = true → cell < 1310720 → ∃ t, exec (.odbUecc ⟨cell, true⟩) s = .next t ∧ Counts (Reg.vigOdbEcc 0) 1 s t ∧
      OnlyRegs [Reg.vigOdbEcc 0] s t) ∧
    (s.coreOn = true → cell < 1310720 → s.vigil.log.length ≤ 255 →
      ∃ t, exec (.odbUecc ⟨cell, false⟩) s = .next t ∧ Counts (Reg.vigOdbEcc 1) 1 s t ∧
        (∃ e ∈ t.vigil.log, e.event = 0x0023 ∧ e.object.toNat = cell) ∧
        (∀ q, (t.queue q).pkts = (s.queue q).pkts.map (fun p =>
          if p.bufs.any (fun b => decide (s.poolKind b.pool < 2) && decide (b.num = 4 * cell)) = true then { p with stomp := true } else p)) ∧
        (TooMany s s.vigil.odbTick → bit t.vigil.reasons 4 = true))) ∧
  (
  (∀ (command : BitVec 8) (block pec : Bool) (written : List Byte) (s : State), s.boot.inReset = true ∨ s.boot.phase = .coldWait →
    exec (.smbusTransaction command ⟨block, pec, written⟩) s = .next s) ∧
  (∀ s : State, s.boot.inReset = false → s.boot.phase ≠ .coldWait →
    SmWord s 0x00 0x5120 ∧ SmWord s 0x01 (if Config.isA0 = true then 0 else 0x10) ∧ SmWord s 0x02 s.boot.phase.code ∧ SmWord s 0x03 s.vigil.state ∧
    (∀ j, j < 22 → bit (s.reg (Reg.powTemp j)) 31 = false →
      SmWord s (BitVec.ofNat 8 (if j < 16 then 0x10 + j else 0x20 + (j - 16))) (bits (s.reg (Reg.powTemp j)) 15 0)) ∧
    (∀ x, HottestIs s x → SmWord s 0x08 (BitVec.ofInt 16 x).toNat) ∧
    (∀ pec : Bool,
      exec (.smbusTransaction 0x04 ⟨true, pec, []⟩) s =
        .next { s with out := s.out ++ [.smbus (withPec pec 0x04 (4 :: leBytes 4 s.vigil.reasons.toNat))] } ∧
      ∃ bs, bs.length = 16 ∧ exec (.smbusTransaction 0x30 ⟨true, pec, []⟩) s =
        .next { s with out := s.out ++ [.smbus (withPec pec 0x30 (16 :: bs))] }) ∧
    (∀ (j : Nat) (pec : Bool), j < 22 → bit (s.reg (Reg.powTemp j)) 31 = true →
      exec (.smbusTransaction (BitVec.ofNat 8 (if j < 16 then 0x10 + j else 0x20 + (j - 16))) ⟨false, pec, []⟩) s =
        .next { s with out := s.out ++ [.smbusNack] }) ∧
    (∀ (command : BitVec 8) (block pec : Bool) (written : List Byte), written ≠ [] →
      exec (.smbusTransaction command ⟨block, pec, written⟩) s = .next { s with out := s.out ++ [.smbusNack] }) ∧
    ∀ (command : BitVec 8) (block pec : Bool), (block = true → command ≠ 0x04 ∧ command ≠ 0x30) →
      (block = false → command.toNat ∉ [0x00, 0x01, 0x02, 0x03, 0x08] ∧ command.toNat / 16 ≠ 1 ∧ (command.toNat < 0x20 ∨ 0x26 ≤ command.toNat)) →
      exec (.smbusTransaction command ⟨block, pec, []⟩) s = .next { s with out := s.out ++ [.smbusNack] }) ∧
  (∀ (opcode : BitVec 8) (s : State), opcode.toNat ∈ tapTable →
    let told := Out.tap opcode (if opcode = 0x01 then some (if Config.isA0 = true then 0x05120D47 else 0x15120D47) else none)
    ∃ t, exec (.tapInstruction opcode) s = .next t ∧ t.vigil.tap = opcode ∧ t.out = s.out ++ [told] ∧
      (∀ p, p < 514 → t.portSt p = s.portSt p) ∧
      (opcode ∈ [0x01, 0x02, 0xFF] → t = { s with
        vigil := { s.vigil with tap := opcode }
        out := s.out ++ [told] }) ∧
      (opcode ∉ [0x01, 0x02, 0xFF] → ∀ p, p < 514 →
        t.dueSt p = if s.portSt p = .up then some (if s.downHold p = 0 then .fault else .hold) else s.dueSt p)) ∧
  ∀ (opcode : BitVec 8) (s : State), opcode.toNat ∉ tapTable →
    (bit s.boot.straps 9 = true → ∃ t, exec (.tapInstruction opcode) s = .next t ∧
      t = { s with
        vigil := { s.vigil with tap := 0xFF }
        out := s.out ++ [.tap 0xFF none] }) ∧
    (bit s.boot.straps 9 = false → s.boot.inReset = false → exec (.tapInstruction opcode) s = .refused (.privateTest opcode.toNat)))

/-- The memory of the machine under reset has the canonical form, and every byte of it reads as the model's unwritten byte (log 1, DESIGN CHOICE).
What reset leaves (R396, R321): no register holds anything but its reset value, and the data plane sees the same; the increments of the time domains
are 0x6_6666_6666, and the domains and their adjustments stand at 0. Counters, packets, threads and the queue of commands hold nothing. -/
def Obligations.StateUnderReset : Prop :=
  (
  MemOk State.reset ∧
  ∀ a, memRead State.reset.mem a = memDefault) ∧
  (
  (∀ d, d < 2 → State.reset.incBase d = 0x666666666 ∧ State.reset.dom d = 0 ∧ State.reset.domA d = 0) ∧
  (∀ ca, State.reset.reg ca = State.reset.cfg ca) ∧
  (∀ j, ctr State.reset j = 0) ∧ (∀ q, (State.reset.queue q).pkts = []) ∧ (∀ n, (State.reset.threadN n).state = .free) ∧
  State.reset.pending = [] ∧ State.reset.alm.tick = 0 ∧ State.reset.boot.inReset = true ∧ State.reset.boot.phase = .coldWait ∧
  State.reset.vigil.state = 0 ∧ State.reset.fabric.lanes = [])

/-- Decode and encode agree on Dinum words (R103, R108): what a word of 64 bits spells has those 64 bits, so no bit is dropped; every word whose operands are not the
reserved displacement 0 is spelled by its own bits. -/
def Obligations.DinumWordsDecodeAndEncode : Prop :=
  (∀ (x : BitVec 64) (w : DWord), decodeWord x = some w → encodeWord w = x) ∧
  ∀ w : DWord, w.a ≠ .disp 0 → w.b ≠ .disp 0 → w.c ≠ .disp 0 → decodeWord (encodeWord w) = some w

end
end

