-- ==== Sys2Proof/Laws/Store.lean ====
section
/-! SUPPORT. Laws of the tables of State and of device memory (R25): what is read back after a write, what a write leaves
alone, and that every write keeps the canonical form. -/

namespace Sys2Proof.Machine

variable {α : Type}

/-! ### Sparse tables -/

@[simp] theorem SMap.find_nil (d : α) (i : Nat) : SMap.find d [] i = d := rfl

theorem SMap.find_drop_same (d : α) (m : SMap α) (i : Nat) : SMap.find d (SMap.drop m i) i = d := by
  induction m with
  | nil => rfl
  | cons x m ih =>
    obtain ⟨k, w⟩ := x
    simp only [SMap.drop]
    split
    · exact ih
    · simp [SMap.find, *]

theorem SMap.find_drop_ne (d : α) (m : SMap α) {i j : Nat} (h : j ≠ i) :
    SMap.find d (SMap.drop m i) j = SMap.find d m j := by
  induction m with
  | nil => rfl
  | cons x m ih =>
    obtain ⟨k, w⟩ := x
    simp only [SMap.drop, SMap.find]
    split
    · subst_vars
      rw [ih, if_neg (Ne.symm h)]
    · simp only [SMap.find, ih]

/-- Every key of a table. -/
def SMap.keys (m : SMap α) : List Nat := m.map Prod.fst

theorem SMap.not_mem_keys_drop (m : SMap α) (i : Nat) : i ∉ SMap.keys (SMap.drop m i) := by
  induction m with
  | nil => simp [SMap.drop, SMap.keys]
  | cons x m ih =>
    obtain ⟨k, w⟩ := x
    simp only [SMap.drop]
    split
    · exact ih
    · simp only [SMap.keys, List.map_cons, List.mem_cons, not_or]
      exact ⟨fun e => by simp_all, ih⟩

theorem SMap.find_of_not_mem (d : α) (m : SMap α) {i : Nat} (h : i ∉ SMap.keys m) : SMap.find d m i = d := by
  induction m with
  | nil => rfl
  | cons x m ih =>
    obtain ⟨k, w⟩ := x
    simp only [SMap.keys, List.map_cons, List.mem_cons, not_or] at h
    simp only [SMap.find]
    rw [if_neg (Ne.symm h.1)]
    exact ih h.2

theorem SMap.find_insert_same (d : α) (m : SMap α) (i : Nat) (v : α) (h : i ∉ SMap.keys m) :
    SMap.find d (SMap.insert m i v) i = v := by
  induction m with
  | nil => simp [SMap.insert, SMap.find]
  | cons x m ih =>
    obtain ⟨k, w⟩ := x
    simp only [SMap.keys, List.map_cons, List.mem_cons, not_or] at h
    simp only [SMap.insert]
    split
    · simp [SMap.find]
    · simp only [SMap.find]
      rw [if_neg (Ne.symm h.1)]
      exact ih h.2

theorem SMap.find_insert_ne (d : α) (m : SMap α) {i j : Nat} (v : α) (h : j ≠ i) :
    SMap.find d (SMap.insert m i v) j = SMap.find d m j := by
  induction m with
  | nil => simp [SMap.insert, SMap.find, Ne.symm h]
  | cons x m ih =>
    obtain ⟨k, w⟩ := x
    simp only [SMap.insert]
    split
    · simp [SMap.find, Ne.symm h]
    · simp only [SMap.find, ih]

/-- A read after a write of the same entry gives what was written. -/
@[simp] theorem SMap.find_set_same [DecidableEq α] (d : α) (m : SMap α) (i : Nat) (v : α) :
    SMap.find d (SMap.set d m i v) i = v := by
  unfold SMap.set
  split
  · rw [SMap.find_drop_same]; simp_all
  · exact SMap.find_insert_same d _ i v (SMap.not_mem_keys_drop m i)

/-- A write leaves every other entry alone, whatever an unlisted entry reads as. -/
theorem SMap.find_set_ne' [DecidableEq α] (d e : α) (m : SMap α) {i j : Nat} (v : α) (h : j ≠ i) :
    SMap.find e (SMap.set d m i v) j = SMap.find e m j := by
  unfold SMap.set
  split
  · exact SMap.find_drop_ne e m h
  · rw [SMap.find_insert_ne e _ v h, SMap.find_drop_ne e m h]

/-- The same, read with the unlisted value it was written with. -/
theorem SMap.find_set_ne [DecidableEq α] (d : α) (m : SMap α) {i j : Nat} (v : α) (h : j ≠ i) :
    SMap.find d (SMap.set d m i v) j = SMap.find d m j := SMap.find_set_ne' d d m v h

/-- Both cases at once. -/
theorem SMap.find_set [DecidableEq α] (d : α) (m : SMap α) (i j : Nat) (v : α) :
    SMap.find d (SMap.set d m i v) j = if j = i then v else SMap.find d m j := by
  split
  · subst_vars; simp
  · exact SMap.find_set_ne d m v ‹_›

/-! ### The canonical form -/

/-- The canonical form as a proposition: keys strictly rising and no entry at the unlisted value. -/
def SMap.Canon (d : α) (m : SMap α) : Prop := m.Pairwise (fun x y => x.1 < y.1) ∧ ∀ x ∈ m, x.2 ≠ d

theorem SMap.wf_iff [DecidableEq α] (d : α) (m : SMap α) : SMap.wf d m = true ↔ SMap.Canon d m := by
  induction m with
  | nil => simp [SMap.wf, SMap.Canon]
  | cons x m ih =>
    obtain ⟨k, v⟩ := x
    cases m with
    | nil => simp [SMap.wf, SMap.Canon]
    | cons y m =>
      obtain ⟨k', v'⟩ := y
      simp only [SMap.wf, Bool.and_eq_true, decide_eq_true_eq, ih]
      unfold SMap.Canon
      constructor
      · rintro ⟨⟨hk, hv⟩, hp, hd⟩
        refine ⟨List.pairwise_cons.2 ⟨?_, hp⟩, ?_⟩
        · intro z hz
          rcases List.mem_cons.1 hz with rfl | hz
          · exact hk
          · exact Nat.lt_trans hk ((List.pairwise_cons.1 hp).1 z hz)
        · intro z hz
          rcases List.mem_cons.1 hz with rfl | hz
          · exact hv
          · exact hd z hz
      · rintro ⟨hp, hd⟩
        have hp' := List.pairwise_cons.1 hp
        exact ⟨⟨hp'.1 _ (List.mem_cons_self ..), hd _ (List.mem_cons_self ..)⟩, hp'.2,
          fun z hz => hd z (List.mem_cons_of_mem _ hz)⟩

theorem SMap.mem_drop (m : SMap α) (i : Nat) (x : Nat × α) : x ∈ SMap.drop m i ↔ x ∈ m ∧ x.1 ≠ i := by
  induction m with
  | nil => simp [SMap.drop]
  | cons y m ih =>
    obtain ⟨k, w⟩ := y
    simp only [SMap.drop]
    split
    · subst_vars
      rw [ih]
      constructor
      · rintro ⟨h1, h2⟩; exact ⟨List.mem_cons_of_mem _ h1, h2⟩
      · rintro ⟨h1, h2⟩
        rcases List.mem_cons.1 h1 with rfl | h1
        · exact absurd rfl h2
        · exact ⟨h1, h2⟩
    · simp only [List.mem_cons, ih]
      constructor
      · rintro (rfl | ⟨h1, h2⟩)
        · exact ⟨Or.inl rfl, ‹_›⟩
        · exact ⟨Or.inr h1, h2⟩
      · rintro ⟨rfl | h1, h2⟩
        · exact Or.inl rfl
        · exact Or.inr ⟨h1, h2⟩

theorem SMap.canon_drop (d : α) (m : SMap α) (i : Nat) (h : SMap.Canon d m) : SMap.Canon d (SMap.drop m i) := by
  refine ⟨?_, fun x hx => h.2 x ((SMap.mem_drop m i x).1 hx).1⟩
  induction m with
  | nil => simp [SMap.drop]
  | cons y m ih =>
    obtain ⟨k, w⟩ := y
    have hp := List.pairwise_cons.1 h.1
    have ih' := ih ⟨hp.2, fun x hx => h.2 x (List.mem_cons_of_mem _ hx)⟩
    simp only [SMap.drop]
    split
    · exact ih'
    · exact List.pairwise_cons.2 ⟨fun z hz => hp.1 z ((SMap.mem_drop m i z).1 hz).1, ih'⟩

theorem SMap.mem_insert (m : SMap α) (i : Nat) (v : α) (x : Nat × α) :
    x ∈ SMap.insert m i v ↔ x = (i, v) ∨ x ∈ m := by
  induction m with
  | nil => simp [SMap.insert]
  | cons y m ih =>
    obtain ⟨k, w⟩ := y
    simp only [SMap.insert]
    split
    · simp
    · simp only [List.mem_cons, ih]; tauto

theorem SMap.canon_insert (d : α) (m : SMap α) (i : Nat) (v : α) (h : SMap.Canon d m) (hi : ∀ x ∈ m, x.1 ≠ i)
    (hv : v ≠ d) : SMap.Canon d (SMap.insert m i v) := by
  refine ⟨?_, fun x hx => ?_⟩
  · induction m with
    | nil => simp [SMap.insert]
    | cons y m ih =>
      obtain ⟨k, w⟩ := y
      have hp := List.pairwise_cons.1 h.1
      have ih' := ih ⟨hp.2, fun x hx => h.2 x (List.mem_cons_of_mem _ hx)⟩ (fun x hx => hi x (List.mem_cons_of_mem _ hx))
      simp only [SMap.insert]
      split
      · refine List.pairwise_cons.2 ⟨?_, h.1⟩
        intro z hz
        rcases List.mem_cons.1 hz with rfl | hz
        · assumption
        · exact Nat.lt_trans ‹_› (hp.1 z hz)
      · refine List.pairwise_cons.2 ⟨?_, ih'⟩
        intro z hz
        rcases (SMap.mem_insert m i v z).1 hz with rfl | hz
        · have : k ≠ i := hi (k, w) (List.mem_cons_self ..)
          show k < i
          omega
        · exact hp.1 z hz
  · rcases (SMap.mem_insert m i v x).1 hx with rfl | hx
    · exact hv
    · exact h.2 x hx

/-- A write keeps the canonical form. -/
theorem SMap.wf_set [DecidableEq α] (d : α) (m : SMap α) (i : Nat) (v : α) (h : SMap.wf d m = true) :
    SMap.wf d (SMap.set d m i v) = true := by
  rw [SMap.wf_iff] at h ⊢
  unfold SMap.set
  split
  · exact SMap.canon_drop d m i h
  · exact SMap.canon_insert d _ i v (SMap.canon_drop d m i h) (fun x hx => ((SMap.mem_drop m i x).1 hx).2) ‹_›

/-- Taking entries out keeps the canonical form. -/
theorem SMap.wf_filter [DecidableEq α] (d : α) (m : SMap α) (p : Nat × α → Bool) (h : SMap.wf d m = true) :
    SMap.wf d (m.filter p) = true := by
  rw [SMap.wf_iff] at h ⊢
  exact ⟨h.1.filter p, fun x hx => h.2 x (List.mem_filter.1 hx).1⟩

/-- Changing every listed value keeps the canonical form. -/
theorem SMap.wf_mapV [DecidableEq α] (d : α) (f : α → α) (m : SMap α) (h : SMap.wf d m = true) :
    SMap.wf d (SMap.mapV d f m) = true := by
  rw [SMap.wf_iff] at h ⊢
  refine ⟨?_, ?_⟩
  · refine List.Pairwise.filter _ ?_
    rw [List.pairwise_map]
    exact h.1
  · intro x hx
    simpa [SMap.mapV] using (List.mem_filter.1 hx).2

/-! ### Device memory -/

@[simp] theorem memRead_memWrite_same (m : List Host.Cell) (a : Nat) (b : Byte) : memRead (memWrite m a b) a = b :=
  SMap.find_set_same _ _ _ _

theorem memRead_memWrite_ne (m : List Host.Cell) {a x : Nat} (b : Byte) (h : x ≠ a) :
    memRead (memWrite m a b) x = memRead m x := SMap.find_set_ne _ _ _ h

/-- Every byte after a write of several: those written, and no other. -/
theorem memRead_memWriteN (m : List Host.Cell) (a : Nat) (bs : List Byte) (x : Nat) :
    memRead (memWriteN m a bs) x = if a ≤ x ∧ x < a + bs.length then bs.getD (x - a) 0 else memRead m x := by
  induction bs generalizing m a with
  | nil =>
    simp only [memWriteN, List.length_nil]
    rw [if_neg (by omega)]
  | cons b bs ih =>
    simp only [memWriteN, ih, List.length_cons]
    by_cases hx : x = a
    · subst hx
      rw [if_neg (by omega), if_pos (by omega)]
      simp
    · by_cases h : a + 1 ≤ x ∧ x < a + 1 + bs.length
      · rw [if_pos h, if_pos (by omega)]
        have : x - a = (x - (a + 1)) + 1 := by omega
        rw [this, List.getD_cons_succ]
      · rw [if_neg h, if_neg (by omega), memRead_memWrite_ne m b hx]

/-- A write of one byte keeps the canonical form. -/
theorem memory_wf_memWrite (m : List Host.Cell) (a : Nat) (b : Byte) (h : Memory.wf m = true) :
    Memory.wf (memWrite m a b) = true := SMap.wf_set _ _ _ _ h

/-- A write of several bytes keeps the canonical form. -/
theorem memory_wf_memWriteN (m : List Host.Cell) (a : Nat) (bs : List Byte) (h : Memory.wf m = true) :
    Memory.wf (memWriteN m a bs) = true := by
  induction bs generalizing m a with
  | nil => exact h
  | cons b bs ih => exact ih _ _ (memory_wf_memWrite m a b h)

/-- Taking a range of addresses out keeps the canonical form. -/
theorem memory_wf_filter (m : List Host.Cell) (p : Host.Cell → Bool) (h : Memory.wf m = true) :
    Memory.wf (m.filter p) = true := SMap.wf_filter _ m p h

/-- The memory under reset has the form. -/
theorem memory_wf_nil : Memory.wf [] = true := rfl

/-- n bytes read from memory are n bytes. -/
@[simp] theorem length_memReadN (m : List Host.Cell) (a n : Nat) : (memReadN m a n).length = n := by
  induction n generalizing a with
  | zero => rfl
  | succ n ih => simp [memReadN, ih]

@[simp] theorem length_leBytes (n v : Nat) : (leBytes n v).length = n := by
  induction n generalizing v with
  | zero => rfl
  | succ n ih => simp [leBytes, ih]

@[simp] theorem length_beBytes (n v : Nat) : (beBytes n v).length = n := by simp [beBytes]

/-- The value of the low n bytes of a number. -/
theorem leNat_leBytes (n v : Nat) : leNat (leBytes n v) = v % 256 ^ n := by
  induction n generalizing v with
  | zero => simp [leBytes, leNat, Nat.mod_one]
  | succ n ih =>
    simp only [leBytes, leNat, ih, BitVec.toNat_ofNat]
    rw [show 256 ^ (n + 1) = 256 * 256 ^ n from Nat.pow_succ']
    exact (Nat.mod_mul (x := v) (a := 256) (b := 256 ^ n)).symm

@[simp] theorem length_putAt (l : List Byte) (o : Nat) (bs : List Byte) : (putAt l o bs).length = l.length := by
  simp only [putAt, List.length_append, List.length_take, List.length_drop]
  omega

end Sys2Proof.Machine
end

