-- ==== Sys2Proof/Laws/Memory.lean ====
section
/-! SUPPORT. Laws of ranges of device memory (R25, R189, R204): what a range reads as, what a write of a range changes, and
that every such write keeps the canonical form. -/

namespace Sys2Proof.Machine

/-! ### Lookup in parts of a table -/

theorem SMap.find_append (d : Byte) (l m : SMap Byte) (x : Nat) :
    SMap.find d (l ++ m) x = if x ∈ SMap.keys l then SMap.find d l x else SMap.find d m x := by
  induction l with
  | nil => simp [SMap.keys]
  | cons y l ih =>
    obtain ⟨k, w⟩ := y
    by_cases h : k = x
    · simp [SMap.find, SMap.keys, h]
    · have h' : ¬ x = k := fun e => h e.symm
      simp [SMap.find, SMap.keys, h, h', ih]

theorem SMap.find_filter (d : Byte) (m : SMap Byte) (p : Nat → Bool) (x : Nat) :
    SMap.find d (m.filter (fun c => p c.1)) x = if p x then SMap.find d m x else d := by
  induction m with
  | nil => simp
  | cons y m ih =>
    obtain ⟨k, w⟩ := y
    by_cases hk : p k <;> by_cases h : k = x
    · subst h; simp [hk, SMap.find]
    · simp [hk, SMap.find, h, ih]
    · subst h; simp [hk, ih]
    · simp [hk, SMap.find, h, ih]

/-! ### The cells of a byte string -/

theorem mem_listCells (a : Nat) (bs : List Byte) (x : Host.Cell) (h : x ∈ listCells a bs) :
    a ≤ x.1 ∧ x.1 < a + bs.length ∧ x.2 ≠ memDefault := by
  induction bs generalizing a with
  | nil => simp [listCells] at h
  | cons b bs ih =>
    simp only [listCells] at h
    split at h
    · have := ih (a + 1) h
      simp only [List.length_cons]; exact ⟨by omega, by omega, this.2.2⟩
    · rcases List.mem_cons.1 h with rfl | h
      · simp only [List.length_cons]; exact ⟨Nat.le_refl _, by omega, ‹_›⟩
      · have := ih (a + 1) h
        simp only [List.length_cons]; exact ⟨by omega, by omega, this.2.2⟩

theorem canon_listCells (a : Nat) (bs : List Byte) : SMap.Canon memDefault (listCells a bs) := by
  refine ⟨?_, fun x hx => (mem_listCells a bs x hx).2.2⟩
  induction bs generalizing a with
  | nil => simp [listCells]
  | cons b bs ih =>
    simp only [listCells]
    split
    · exact ih (a + 1)
    · exact List.pairwise_cons.2 ⟨fun x hx => (mem_listCells (a + 1) bs x hx).1, ih (a + 1)⟩

theorem find_listCells (a : Nat) (bs : List Byte) (x : Nat) :
    SMap.find memDefault (listCells a bs) x = if a ≤ x ∧ x < a + bs.length then bs.getD (x - a) 0 else memDefault := by
  induction bs generalizing a with
  | nil =>
    simp only [listCells, SMap.find_nil, List.length_nil]
    rw [if_neg (show ¬ (a ≤ x ∧ x < a + 0) by omega)]
  | cons b bs ih =>
    simp only [listCells, List.length_cons]
    by_cases hx : x = a
    · subst hx
      rw [if_pos (show x ≤ x ∧ x < x + (bs.length + 1) by omega), Nat.sub_self]
      by_cases hb : b = memDefault
      · rw [if_pos hb, ih, if_neg (show ¬ (x + 1 ≤ x ∧ x < x + 1 + bs.length) by omega), hb]; rfl
      · rw [if_neg hb]; simp [SMap.find]
    · have e : SMap.find memDefault (if b = memDefault then listCells (a + 1) bs else (a, b) :: listCells (a + 1) bs) x =
          SMap.find memDefault (listCells (a + 1) bs) x := by
        split
        · rfl
        · simp only [SMap.find]; rw [if_neg (Ne.symm hx)]
      rw [e, ih]
      by_cases hr : a ≤ x ∧ x < a + (bs.length + 1)
      · rw [if_pos hr, if_pos (by omega)]
        have : x - a = (x - (a + 1)) + 1 := by omega
        rw [this]; rfl
      · rw [if_neg hr, if_neg (by omega)]

/-! ### Reading and writing a range -/

@[simp] theorem length_memGet (m : List Host.Cell) (a n : Nat) : (memGet m a n).length = n := by simp [memGet]

/-- A range reads as its bytes. -/
theorem memGet_eq (m : List Host.Cell) (a n : Nat) : memGet m a n = (List.range n).map (fun i => memRead m (a + i)) := by
  unfold memGet memRead
  refine List.map_congr_left (fun i hi => ?_)
  have hi := List.mem_range.1 hi
  rw [SMap.find_filter memDefault m (fun k => decide (a ≤ k) && decide (k < a + n))]
  rw [if_pos (by simp; omega)]

/-- A write of a range writes its bytes and leaves every other byte. -/
theorem memRead_memPut (m : List Host.Cell) (a : Nat) (bs : List Byte) (x : Nat) :
    memRead (memPut m a bs) x = if a ≤ x ∧ x < a + bs.length then bs.getD (x - a) 0 else memRead m x := by
  unfold memRead memPut
  rw [SMap.find_append, SMap.find_append]
  have lo : ∀ y, y ∈ SMap.keys (m.filter (fun c => decide (c.1 < a))) → y < a := by
    intro y hy
    obtain ⟨c, hc, rfl⟩ := List.mem_map.1 hy
    simpa using (List.mem_filter.1 hc).2
  have mid : ∀ y, y ∈ SMap.keys (listCells a bs) → a ≤ y ∧ y < a + bs.length := by
    intro y hy
    obtain ⟨c, hc, rfl⟩ := List.mem_map.1 hy
    exact ⟨(mem_listCells a bs c hc).1, (mem_listCells a bs c hc).2.1⟩
  have flo := SMap.find_filter memDefault m (fun k => decide (k < a)) x
  have fhi := SMap.find_filter memDefault m (fun k => decide (a + bs.length ≤ k)) x
  have fmid := find_listCells a bs x
  by_cases hx : x < a
  · have e1 : x ∉ SMap.keys (listCells a bs) := fun h => by have := mid x h; omega
    rw [if_neg (by omega : ¬ (a ≤ x ∧ x < a + bs.length))]
    by_cases hk : x ∈ SMap.keys (m.filter (fun c => decide (c.1 < a)))
    · rw [if_pos (by simp [SMap.keys] at hk ⊢; tauto), if_pos hk, flo]; simp [hx]
    · rw [if_neg (by simp [SMap.keys] at hk e1 ⊢; tauto), fhi]
      have : SMap.find memDefault m x = memDefault := by
        have := SMap.find_of_not_mem memDefault (m.filter (fun c => decide (c.1 < a))) hk
        rw [flo] at this; simpa [hx] using this
      rw [this]; split <;> rfl
  · have e1 : x ∉ SMap.keys (m.filter (fun c => decide (c.1 < a))) := fun h => hx (lo x h)
    by_cases hy : x < a + bs.length
    · rw [if_pos (by omega : a ≤ x ∧ x < a + bs.length), if_neg e1]
      rw [if_pos (by omega : a ≤ x ∧ x < a + bs.length)] at fmid
      by_cases hk : x ∈ SMap.keys (listCells a bs)
      · rw [if_pos (by simp [SMap.keys] at hk ⊢; tauto), fmid]
      · rw [if_neg (by simp [SMap.keys] at hk e1 ⊢; tauto), fhi]
        have := SMap.find_of_not_mem memDefault (listCells a bs) hk
        rw [fmid] at this
        rw [this, if_neg (by simp; omega)]
    · rw [if_neg (by omega : ¬ (a ≤ x ∧ x < a + bs.length))]
      have e2 : x ∉ SMap.keys (listCells a bs) := fun h => by have := mid x h; omega
      rw [if_neg (by simp [SMap.keys] at e1 e2 ⊢; tauto), fhi, if_pos (by simp; omega)]

/-- A write of a range keeps the canonical form. -/
theorem memory_wf_memPut (m : List Host.Cell) (a : Nat) (bs : List Byte) (h : Memory.wf m = true) :
    Memory.wf (memPut m a bs) = true := by
  unfold Memory.wf at h ⊢
  rw [SMap.wf_iff] at h ⊢
  have hm := canon_listCells a bs
  refine ⟨?_, ?_⟩
  · refine List.pairwise_append.2 ⟨List.pairwise_append.2 ⟨h.1.filter _, hm.1, ?_⟩, h.1.filter _, ?_⟩
    · intro x hx y hy
      have h1 : x.1 < a := by simpa using (List.mem_filter.1 hx).2
      have h2 := (mem_listCells a bs y hy).1
      omega
    · intro x hx y hy
      have h2 : a + bs.length ≤ y.1 := by simpa using (List.mem_filter.1 hy).2
      rcases List.mem_append.1 hx with hx | hx
      · have h1 : x.1 < a := by simpa using (List.mem_filter.1 hx).2
        omega
      · have h1 := (mem_listCells a bs x hx).2.1
        omega
  · intro x hx
    rcases List.mem_append.1 hx with hx | hx
    · rcases List.mem_append.1 hx with hx | hx
      · exact h.2 x (List.mem_filter.1 hx).1
      · exact hm.2 x hx
    · exact h.2 x (List.mem_filter.1 hx).1

/-! ### The writes of the Stacks and of the ODB -/

theorem memory_wf_stkBytes (l : List (Nat × Byte)) (s : State) (h : Memory.wf s.mem = true) :
    Memory.wf (l.foldl State.stkByte s).mem = true := by
  induction l generalizing s with
  | nil => exact h
  | cons x l ih => exact ih _ (memory_wf_memWrite s.mem _ x.2 h)

theorem memory_wf_stkPut (s : State) (a : Nat) (bs : List Byte) (h : Memory.wf s.mem = true) :
    Memory.wf (s.stkPut a bs).mem = true := by
  unfold State.stkPut
  split
  · exact memory_wf_stkBytes _ s h
  · exact memory_wf_memPut s.mem a bs h

theorem memory_wf_odbPut (s : State) (b : Buf) (bs : List Byte) (h : Memory.wf s.mem = true) :
    Memory.wf (s.odbPut b bs).mem = true := by
  unfold State.odbPut
  split
  · exact memory_wf_memPut s.mem _ bs h
  · exact h

/-- A write to an ODB cell is read back from it (R202). -/
theorem odbGet_odbPut (s : State) (b : Buf) (bs : List Byte) (hp : s.poolKind b.pool < 2) (hl : bs.length = 256) :
    (s.odbPut b bs).odbGet b = bs := by
  unfold State.odbPut State.odbGet
  rw [if_pos hp]
  simp only [memGet_eq]
  refine List.ext_getElem (by simp [hl]) (fun i h1 h2 => ?_)
  simp only [List.getElem_map, List.getElem_range, memRead_memPut]
  rw [if_pos (by simp at h1; omega)]
  simp [List.getD_eq_getElem?_getD, h2]

end Sys2Proof.Machine
end

