-- ==== Sys2Proof/Laws/State.lean ====
section
/-! SUPPORT. Laws of State: for each named update of Machine/Ops.lean, the fields it leaves alone, and what is read back of
those it writes. -/

namespace Sys2Proof.Machine

/-! ### The fields each update leaves alone -/

@[simp] theorem State.setReg_dp (s : State) (ca : Nat) (v : Word32) : (s.setReg ca v).dp = s.dp := rfl
@[simp] theorem State.setReg_wideHeld (s : State) (ca : Nat) (v : Word32) : (s.setReg ca v).wideHeld = s.wideHeld := rfl
@[simp] theorem State.setReg_mem (s : State) (ca : Nat) (v : Word32) : (s.setReg ca v).mem = s.mem := rfl
@[simp] theorem State.setReg_boot (s : State) (ca : Nat) (v : Word32) : (s.setReg ca v).boot = s.boot := rfl
@[simp] theorem State.setReg_power (s : State) (ca : Nat) (v : Word32) : (s.setReg ca v).power = s.power := rfl
@[simp] theorem State.setReg_alm (s : State) (ca : Nat) (v : Word32) : (s.setReg ca v).alm = s.alm := rfl
@[simp] theorem State.setReg_threads (s : State) (ca : Nat) (v : Word32) : (s.setReg ca v).threads = s.threads := rfl
@[simp] theorem State.setReg_halted (s : State) (ca : Nat) (v : Word32) : (s.setReg ca v).halted = s.halted := rfl
@[simp] theorem State.setReg_issuer (s : State) (ca : Nat) (v : Word32) : (s.setReg ca v).issuer = s.issuer := rfl
@[simp] theorem State.setReg_spareIn (s : State) (ca : Nat) (v : Word32) : (s.setReg ca v).spareIn = s.spareIn := rfl
@[simp] theorem State.setReg_clusters (s : State) (ca : Nat) (v : Word32) : (s.setReg ca v).clusters = s.clusters := rfl
@[simp] theorem State.setReg_slices (s : State) (ca : Nat) (v : Word32) : (s.setReg ca v).slices = s.slices := rfl
@[simp] theorem State.setReg_rx (s : State) (ca : Nat) (v : Word32) : (s.setReg ca v).rx = s.rx := rfl
@[simp] theorem State.setReg_dir (s : State) (ca : Nat) (v : Word32) : (s.setReg ca v).dir = s.dir := rfl
@[simp] theorem State.setReg_dirNext (s : State) (ca : Nat) (v : Word32) : (s.setReg ca v).dirNext = s.dirNext := rfl
@[simp] theorem State.setReg_wings (s : State) (ca : Nat) (v : Word32) : (s.setReg ca v).wings = s.wings := rfl
@[simp] theorem State.setReg_pools (s : State) (ca : Nat) (v : Word32) : (s.setReg ca v).pools = s.pools := rfl
@[simp] theorem State.setReg_freeChk (s : State) (ca : Nat) (v : Word32) : (s.setReg ca v).freeChk = s.freeChk := rfl
@[simp] theorem State.setReg_gddr (s : State) (ca : Nat) (v : Word32) : (s.setReg ca v).gddr = s.gddr := rfl
@[simp] theorem State.setReg_core (s : State) (ca : Nat) (v : Word32) : (s.setReg ca v).core = s.core := rfl
@[simp] theorem State.setReg_tm (s : State) (ca : Nat) (v : Word32) : (s.setReg ca v).tm = s.tm := rfl
@[simp] theorem State.setReg_ports (s : State) (ca : Nat) (v : Word32) : (s.setReg ca v).ports = s.ports := rfl
@[simp] theorem State.setReg_eyes (s : State) (ca : Nat) (v : Word32) : (s.setReg ca v).eyes = s.eyes := rfl
@[simp] theorem State.setReg_rclkA (s : State) (ca : Nat) (v : Word32) : (s.setReg ca v).rclkA = s.rclkA := rfl
@[simp] theorem State.setReg_rclkB (s : State) (ca : Nat) (v : Word32) : (s.setReg ca v).rclkB = s.rclkB := rfl
@[simp] theorem State.setReg_fabric (s : State) (ca : Nat) (v : Word32) : (s.setReg ca v).fabric = s.fabric := rfl
@[simp] theorem State.setReg_cipher (s : State) (ca : Nat) (v : Word32) : (s.setReg ca v).cipher = s.cipher := rfl
@[simp] theorem State.setReg_time (s : State) (ca : Nat) (v : Word32) : (s.setReg ca v).time = s.time := rfl
@[simp] theorem State.setReg_dcp (s : State) (ca : Nat) (v : Word32) : (s.setReg ca v).dcp = s.dcp := rfl
@[simp] theorem State.setReg_ctrs (s : State) (ca : Nat) (v : Word32) : (s.setReg ca v).ctrs = s.ctrs := rfl
@[simp] theorem State.setReg_vigil (s : State) (ca : Nat) (v : Word32) : (s.setReg ca v).vigil = s.vigil := rfl
@[simp] theorem State.setReg_out (s : State) (ca : Nat) (v : Word32) : (s.setReg ca v).out = s.out := rfl
@[simp] theorem State.setReg_nextId (s : State) (ca : Nat) (v : Word32) : (s.setReg ca v).nextId = s.nextId := rfl
@[simp] theorem State.setReg_retired (s : State) (ca : Nat) (v : Word32) : (s.setReg ca v).retired = s.retired := rfl
@[simp] theorem State.setReg_free (s : State) (ca : Nat) (v : Word32) : (s.setReg ca v).free = s.free := rfl
@[simp] theorem State.setReg_pending (s : State) (ca : Nat) (v : Word32) : (s.setReg ca v).pending = s.pending := rfl

@[simp] theorem State.setRegNow_wideHeld (s : State) (ca : Nat) (v : Word32) : (s.setRegNow ca v).wideHeld = s.wideHeld := rfl
@[simp] theorem State.setRegNow_mem (s : State) (ca : Nat) (v : Word32) : (s.setRegNow ca v).mem = s.mem := rfl
@[simp] theorem State.setRegNow_boot (s : State) (ca : Nat) (v : Word32) : (s.setRegNow ca v).boot = s.boot := rfl
@[simp] theorem State.setRegNow_power (s : State) (ca : Nat) (v : Word32) : (s.setRegNow ca v).power = s.power := rfl
@[simp] theorem State.setRegNow_alm (s : State) (ca : Nat) (v : Word32) : (s.setRegNow ca v).alm = s.alm := rfl
@[simp] theorem State.setRegNow_threads (s : State) (ca : Nat) (v : Word32) : (s.setRegNow ca v).threads = s.threads := rfl
@[simp] theorem State.setRegNow_halted (s : State) (ca : Nat) (v : Word32) : (s.setRegNow ca v).halted = s.halted := rfl
@[simp] theorem State.setRegNow_issuer (s : State) (ca : Nat) (v : Word32) : (s.setRegNow ca v).issuer = s.issuer := rfl
@[simp] theorem State.setRegNow_spareIn (s : State) (ca : Nat) (v : Word32) : (s.setRegNow ca v).spareIn = s.spareIn := rfl
@[simp] theorem State.setRegNow_clusters (s : State) (ca : Nat) (v : Word32) : (s.setRegNow ca v).clusters = s.clusters := rfl
@[simp] theorem State.setRegNow_slices (s : State) (ca : Nat) (v : Word32) : (s.setRegNow ca v).slices = s.slices := rfl
@[simp] theorem State.setRegNow_rx (s : State) (ca : Nat) (v : Word32) : (s.setRegNow ca v).rx = s.rx := rfl
@[simp] theorem State.setRegNow_dir (s : State) (ca : Nat) (v : Word32) : (s.setRegNow ca v).dir = s.dir := rfl
@[simp] theorem State.setRegNow_dirNext (s : State) (ca : Nat) (v : Word32) : (s.setRegNow ca v).dirNext = s.dirNext := rfl
@[simp] theorem State.setRegNow_wings (s : State) (ca : Nat) (v : Word32) : (s.setRegNow ca v).wings = s.wings := rfl
@[simp] theorem State.setRegNow_pools (s : State) (ca : Nat) (v : Word32) : (s.setRegNow ca v).pools = s.pools := rfl
@[simp] theorem State.setRegNow_freeChk (s : State) (ca : Nat) (v : Word32) : (s.setRegNow ca v).freeChk = s.freeChk := rfl
@[simp] theorem State.setRegNow_gddr (s : State) (ca : Nat) (v : Word32) : (s.setRegNow ca v).gddr = s.gddr := rfl
@[simp] theorem State.setRegNow_core (s : State) (ca : Nat) (v : Word32) : (s.setRegNow ca v).core = s.core := rfl
@[simp] theorem State.setRegNow_tm (s : State) (ca : Nat) (v : Word32) : (s.setRegNow ca v).tm = s.tm := rfl
@[simp] theorem State.setRegNow_ports (s : State) (ca : Nat) (v : Word32) : (s.setRegNow ca v).ports = s.ports := rfl
@[simp] theorem State.setRegNow_eyes (s : State) (ca : Nat) (v : Word32) : (s.setRegNow ca v).eyes = s.eyes := rfl
@[simp] theorem State.setRegNow_rclkA (s : State) (ca : Nat) (v : Word32) : (s.setRegNow ca v).rclkA = s.rclkA := rfl
@[simp] theorem State.setRegNow_rclkB (s : State) (ca : Nat) (v : Word32) : (s.setRegNow ca v).rclkB = s.rclkB := rfl
@[simp] theorem State.setRegNow_fabric (s : State) (ca : Nat) (v : Word32) : (s.setRegNow ca v).fabric = s.fabric := rfl
@[simp] theorem State.setRegNow_cipher (s : State) (ca : Nat) (v : Word32) : (s.setRegNow ca v).cipher = s.cipher := rfl
@[simp] theorem State.setRegNow_time (s : State) (ca : Nat) (v : Word32) : (s.setRegNow ca v).time = s.time := rfl
@[simp] theorem State.setRegNow_dcp (s : State) (ca : Nat) (v : Word32) : (s.setRegNow ca v).dcp = s.dcp := rfl
@[simp] theorem State.setRegNow_ctrs (s : State) (ca : Nat) (v : Word32) : (s.setRegNow ca v).ctrs = s.ctrs := rfl
@[simp] theorem State.setRegNow_vigil (s : State) (ca : Nat) (v : Word32) : (s.setRegNow ca v).vigil = s.vigil := rfl
@[simp] theorem State.setRegNow_out (s : State) (ca : Nat) (v : Word32) : (s.setRegNow ca v).out = s.out := rfl
@[simp] theorem State.setRegNow_nextId (s : State) (ca : Nat) (v : Word32) : (s.setRegNow ca v).nextId = s.nextId := rfl
@[simp] theorem State.setRegNow_retired (s : State) (ca : Nat) (v : Word32) : (s.setRegNow ca v).retired = s.retired := rfl
@[simp] theorem State.setRegNow_free (s : State) (ca : Nat) (v : Word32) : (s.setRegNow ca v).free = s.free := rfl
@[simp] theorem State.setRegNow_pending (s : State) (ca : Nat) (v : Word32) : (s.setRegNow ca v).pending = s.pending := rfl

@[simp] theorem State.setRegF_dp (s : State) (ca hi lo v : Nat) : (s.setRegF ca hi lo v).dp = s.dp := rfl
@[simp] theorem State.setRegF_wideHeld (s : State) (ca hi lo v : Nat) : (s.setRegF ca hi lo v).wideHeld = s.wideHeld := rfl
@[simp] theorem State.setRegF_mem (s : State) (ca hi lo v : Nat) : (s.setRegF ca hi lo v).mem = s.mem := rfl
@[simp] theorem State.setRegF_boot (s : State) (ca hi lo v : Nat) : (s.setRegF ca hi lo v).boot = s.boot := rfl
@[simp] theorem State.setRegF_power (s : State) (ca hi lo v : Nat) : (s.setRegF ca hi lo v).power = s.power := rfl
@[simp] theorem State.setRegF_alm (s : State) (ca hi lo v : Nat) : (s.setRegF ca hi lo v).alm = s.alm := rfl
@[simp] theorem State.setRegF_threads (s : State) (ca hi lo v : Nat) : (s.setRegF ca hi lo v).threads = s.threads := rfl
@[simp] theorem State.setRegF_halted (s : State) (ca hi lo v : Nat) : (s.setRegF ca hi lo v).halted = s.halted := rfl
@[simp] theorem State.setRegF_issuer (s : State) (ca hi lo v : Nat) : (s.setRegF ca hi lo v).issuer = s.issuer := rfl
@[simp] theorem State.setRegF_spareIn (s : State) (ca hi lo v : Nat) : (s.setRegF ca hi lo v).spareIn = s.spareIn := rfl
@[simp] theorem State.setRegF_clusters (s : State) (ca hi lo v : Nat) : (s.setRegF ca hi lo v).clusters = s.clusters := rfl
@[simp] theorem State.setRegF_slices (s : State) (ca hi lo v : Nat) : (s.setRegF ca hi lo v).slices = s.slices := rfl
@[simp] theorem State.setRegF_rx (s : State) (ca hi lo v : Nat) : (s.setRegF ca hi lo v).rx = s.rx := rfl
@[simp] theorem State.setRegF_dir (s : State) (ca hi lo v : Nat) : (s.setRegF ca hi lo v).dir = s.dir := rfl
@[simp] theorem State.setRegF_dirNext (s : State) (ca hi lo v : Nat) : (s.setRegF ca hi lo v).dirNext = s.dirNext := rfl
@[simp] theorem State.setRegF_wings (s : State) (ca hi lo v : Nat) : (s.setRegF ca hi lo v).wings = s.wings := rfl
@[simp] theorem State.setRegF_pools (s : State) (ca hi lo v : Nat) : (s.setRegF ca hi lo v).pools = s.pools := rfl
@[simp] theorem State.setRegF_freeChk (s : State) (ca hi lo v : Nat) : (s.setRegF ca hi lo v).freeChk = s.freeChk := rfl
@[simp] theorem State.setRegF_gddr (s : State) (ca hi lo v : Nat) : (s.setRegF ca hi lo v).gddr = s.gddr := rfl
@[simp] theorem State.setRegF_core (s : State) (ca hi lo v : Nat) : (s.setRegF ca hi lo v).core = s.core := rfl
@[simp] theorem State.setRegF_tm (s : State) (ca hi lo v : Nat) : (s.setRegF ca hi lo v).tm = s.tm := rfl
@[simp] theorem State.setRegF_ports (s : State) (ca hi lo v : Nat) : (s.setRegF ca hi lo v).ports = s.ports := rfl
@[simp] theorem State.setRegF_eyes (s : State) (ca hi lo v : Nat) : (s.setRegF ca hi lo v).eyes = s.eyes := rfl
@[simp] theorem State.setRegF_rclkA (s : State) (ca hi lo v : Nat) : (s.setRegF ca hi lo v).rclkA = s.rclkA := rfl
@[simp] theorem State.setRegF_rclkB (s : State) (ca hi lo v : Nat) : (s.setRegF ca hi lo v).rclkB = s.rclkB := rfl
@[simp] theorem State.setRegF_fabric (s : State) (ca hi lo v : Nat) : (s.setRegF ca hi lo v).fabric = s.fabric := rfl
@[simp] theorem State.setRegF_cipher (s : State) (ca hi lo v : Nat) : (s.setRegF ca hi lo v).cipher = s.cipher := rfl
@[simp] theorem State.setRegF_time (s : State) (ca hi lo v : Nat) : (s.setRegF ca hi lo v).time = s.time := rfl
@[simp] theorem State.setRegF_dcp (s : State) (ca hi lo v : Nat) : (s.setRegF ca hi lo v).dcp = s.dcp := rfl
@[simp] theorem State.setRegF_ctrs (s : State) (ca hi lo v : Nat) : (s.setRegF ca hi lo v).ctrs = s.ctrs := rfl
@[simp] theorem State.setRegF_vigil (s : State) (ca hi lo v : Nat) : (s.setRegF ca hi lo v).vigil = s.vigil := rfl
@[simp] theorem State.setRegF_out (s : State) (ca hi lo v : Nat) : (s.setRegF ca hi lo v).out = s.out := rfl
@[simp] theorem State.setRegF_nextId (s : State) (ca hi lo v : Nat) : (s.setRegF ca hi lo v).nextId = s.nextId := rfl
@[simp] theorem State.setRegF_retired (s : State) (ca hi lo v : Nat) : (s.setRegF ca hi lo v).retired = s.retired := rfl
@[simp] theorem State.setRegF_free (s : State) (ca hi lo v : Nat) : (s.setRegF ca hi lo v).free = s.free := rfl
@[simp] theorem State.setRegF_pending (s : State) (ca hi lo v : Nat) : (s.setRegF ca hi lo v).pending = s.pending := rfl

@[simp] theorem State.setEv_dp (s : State) (ca n : Nat) : (s.setEv ca n).dp = s.dp := rfl
@[simp] theorem State.setEv_wideHeld (s : State) (ca n : Nat) : (s.setEv ca n).wideHeld = s.wideHeld := rfl
@[simp] theorem State.setEv_mem (s : State) (ca n : Nat) : (s.setEv ca n).mem = s.mem := rfl
@[simp] theorem State.setEv_boot (s : State) (ca n : Nat) : (s.setEv ca n).boot = s.boot := rfl
@[simp] theorem State.setEv_power (s : State) (ca n : Nat) : (s.setEv ca n).power = s.power := rfl
@[simp] theorem State.setEv_alm (s : State) (ca n : Nat) : (s.setEv ca n).alm = s.alm := rfl
@[simp] theorem State.setEv_threads (s : State) (ca n : Nat) : (s.setEv ca n).threads = s.threads := rfl
@[simp] theorem State.setEv_halted (s : State) (ca n : Nat) : (s.setEv ca n).halted = s.halted := rfl
@[simp] theorem State.setEv_issuer (s : State) (ca n : Nat) : (s.setEv ca n).issuer = s.issuer := rfl
@[simp] theorem State.setEv_spareIn (s : State) (ca n : Nat) : (s.setEv ca n).spareIn = s.spareIn := rfl
@[simp] theorem State.setEv_clusters (s : State) (ca n : Nat) : (s.setEv ca n).clusters = s.clusters := rfl
@[simp] theorem State.setEv_slices (s : State) (ca n : Nat) : (s.setEv ca n).slices = s.slices := rfl
@[simp] theorem State.setEv_rx (s : State) (ca n : Nat) : (s.setEv ca n).rx = s.rx := rfl
@[simp] theorem State.setEv_dir (s : State) (ca n : Nat) : (s.setEv ca n).dir = s.dir := rfl
@[simp] theorem State.setEv_dirNext (s : State) (ca n : Nat) : (s.setEv ca n).dirNext = s.dirNext := rfl
@[simp] theorem State.setEv_wings (s : State) (ca n : Nat) : (s.setEv ca n).wings = s.wings := rfl
@[simp] theorem State.setEv_pools (s : State) (ca n : Nat) : (s.setEv ca n).pools = s.pools := rfl
@[simp] theorem State.setEv_freeChk (s : State) (ca n : Nat) : (s.setEv ca n).freeChk = s.freeChk := rfl
@[simp] theorem State.setEv_gddr (s : State) (ca n : Nat) : (s.setEv ca n).gddr = s.gddr := rfl
@[simp] theorem State.setEv_core (s : State) (ca n : Nat) : (s.setEv ca n).core = s.core := rfl
@[simp] theorem State.setEv_tm (s : State) (ca n : Nat) : (s.setEv ca n).tm = s.tm := rfl
@[simp] theorem State.setEv_ports (s : State) (ca n : Nat) : (s.setEv ca n).ports = s.ports := rfl
@[simp] theorem State.setEv_eyes (s : State) (ca n : Nat) : (s.setEv ca n).eyes = s.eyes := rfl
@[simp] theorem State.setEv_rclkA (s : State) (ca n : Nat) : (s.setEv ca n).rclkA = s.rclkA := rfl
@[simp] theorem State.setEv_rclkB (s : State) (ca n : Nat) : (s.setEv ca n).rclkB = s.rclkB := rfl
@[simp] theorem State.setEv_fabric (s : State) (ca n : Nat) : (s.setEv ca n).fabric = s.fabric := rfl
@[simp] theorem State.setEv_cipher (s : State) (ca n : Nat) : (s.setEv ca n).cipher = s.cipher := rfl
@[simp] theorem State.setEv_time (s : State) (ca n : Nat) : (s.setEv ca n).time = s.time := rfl
@[simp] theorem State.setEv_dcp (s : State) (ca n : Nat) : (s.setEv ca n).dcp = s.dcp := rfl
@[simp] theorem State.setEv_ctrs (s : State) (ca n : Nat) : (s.setEv ca n).ctrs = s.ctrs := rfl
@[simp] theorem State.setEv_vigil (s : State) (ca n : Nat) : (s.setEv ca n).vigil = s.vigil := rfl
@[simp] theorem State.setEv_out (s : State) (ca n : Nat) : (s.setEv ca n).out = s.out := rfl
@[simp] theorem State.setEv_nextId (s : State) (ca n : Nat) : (s.setEv ca n).nextId = s.nextId := rfl
@[simp] theorem State.setEv_retired (s : State) (ca n : Nat) : (s.setEv ca n).retired = s.retired := rfl
@[simp] theorem State.setEv_free (s : State) (ca n : Nat) : (s.setEv ca n).free = s.free := rfl
@[simp] theorem State.setEv_pending (s : State) (ca n : Nat) : (s.setEv ca n).pending = s.pending := rfl

@[simp] theorem State.clrBit_wideHeld (s : State) (ca n : Nat) : (s.clrBit ca n).wideHeld = s.wideHeld := rfl
@[simp] theorem State.clrBit_mem (s : State) (ca n : Nat) : (s.clrBit ca n).mem = s.mem := rfl
@[simp] theorem State.clrBit_boot (s : State) (ca n : Nat) : (s.clrBit ca n).boot = s.boot := rfl
@[simp] theorem State.clrBit_power (s : State) (ca n : Nat) : (s.clrBit ca n).power = s.power := rfl
@[simp] theorem State.clrBit_alm (s : State) (ca n : Nat) : (s.clrBit ca n).alm = s.alm := rfl
@[simp] theorem State.clrBit_threads (s : State) (ca n : Nat) : (s.clrBit ca n).threads = s.threads := rfl
@[simp] theorem State.clrBit_halted (s : State) (ca n : Nat) : (s.clrBit ca n).halted = s.halted := rfl
@[simp] theorem State.clrBit_issuer (s : State) (ca n : Nat) : (s.clrBit ca n).issuer = s.issuer := rfl
@[simp] theorem State.clrBit_spareIn (s : State) (ca n : Nat) : (s.clrBit ca n).spareIn = s.spareIn := rfl
@[simp] theorem State.clrBit_clusters (s : State) (ca n : Nat) : (s.clrBit ca n).clusters = s.clusters := rfl
@[simp] theorem State.clrBit_slices (s : State) (ca n : Nat) : (s.clrBit ca n).slices = s.slices := rfl
@[simp] theorem State.clrBit_rx (s : State) (ca n : Nat) : (s.clrBit ca n).rx = s.rx := rfl
@[simp] theorem State.clrBit_dir (s : State) (ca n : Nat) : (s.clrBit ca n).dir = s.dir := rfl
@[simp] theorem State.clrBit_dirNext (s : State) (ca n : Nat) : (s.clrBit ca n).dirNext = s.dirNext := rfl
@[simp] theorem State.clrBit_wings (s : State) (ca n : Nat) : (s.clrBit ca n).wings = s.wings := rfl
@[simp] theorem State.clrBit_pools (s : State) (ca n : Nat) : (s.clrBit ca n).pools = s.pools := rfl
@[simp] theorem State.clrBit_freeChk (s : State) (ca n : Nat) : (s.clrBit ca n).freeChk = s.freeChk := rfl
@[simp] theorem State.clrBit_gddr (s : State) (ca n : Nat) : (s.clrBit ca n).gddr = s.gddr := rfl
@[simp] theorem State.clrBit_core (s : State) (ca n : Nat) : (s.clrBit ca n).core = s.core := rfl
@[simp] theorem State.clrBit_tm (s : State) (ca n : Nat) : (s.clrBit ca n).tm = s.tm := rfl
@[simp] theorem State.clrBit_ports (s : State) (ca n : Nat) : (s.clrBit ca n).ports = s.ports := rfl
@[simp] theorem State.clrBit_eyes (s : State) (ca n : Nat) : (s.clrBit ca n).eyes = s.eyes := rfl
@[simp] theorem State.clrBit_rclkA (s : State) (ca n : Nat) : (s.clrBit ca n).rclkA = s.rclkA := rfl
@[simp] theorem State.clrBit_rclkB (s : State) (ca n : Nat) : (s.clrBit ca n).rclkB = s.rclkB := rfl
@[simp] theorem State.clrBit_fabric (s : State) (ca n : Nat) : (s.clrBit ca n).fabric = s.fabric := rfl
@[simp] theorem State.clrBit_cipher (s : State) (ca n : Nat) : (s.clrBit ca n).cipher = s.cipher := rfl
@[simp] theorem State.clrBit_time (s : State) (ca n : Nat) : (s.clrBit ca n).time = s.time := rfl
@[simp] theorem State.clrBit_dcp (s : State) (ca n : Nat) : (s.clrBit ca n).dcp = s.dcp := rfl
@[simp] theorem State.clrBit_ctrs (s : State) (ca n : Nat) : (s.clrBit ca n).ctrs = s.ctrs := rfl
@[simp] theorem State.clrBit_vigil (s : State) (ca n : Nat) : (s.clrBit ca n).vigil = s.vigil := rfl
@[simp] theorem State.clrBit_out (s : State) (ca n : Nat) : (s.clrBit ca n).out = s.out := rfl
@[simp] theorem State.clrBit_nextId (s : State) (ca n : Nat) : (s.clrBit ca n).nextId = s.nextId := rfl
@[simp] theorem State.clrBit_retired (s : State) (ca n : Nat) : (s.clrBit ca n).retired = s.retired := rfl
@[simp] theorem State.clrBit_free (s : State) (ca n : Nat) : (s.clrBit ca n).free = s.free := rfl
@[simp] theorem State.clrBit_pending (s : State) (ca n : Nat) : (s.clrBit ca n).pending = s.pending := rfl

@[simp] theorem State.bump_dp (s : State) (ca n : Nat) : (s.bump ca n).dp = s.dp := rfl
@[simp] theorem State.bump_wideHeld (s : State) (ca n : Nat) : (s.bump ca n).wideHeld = s.wideHeld := rfl
@[simp] theorem State.bump_mem (s : State) (ca n : Nat) : (s.bump ca n).mem = s.mem := rfl
@[simp] theorem State.bump_boot (s : State) (ca n : Nat) : (s.bump ca n).boot = s.boot := rfl
@[simp] theorem State.bump_power (s : State) (ca n : Nat) : (s.bump ca n).power = s.power := rfl
@[simp] theorem State.bump_alm (s : State) (ca n : Nat) : (s.bump ca n).alm = s.alm := rfl
@[simp] theorem State.bump_threads (s : State) (ca n : Nat) : (s.bump ca n).threads = s.threads := rfl
@[simp] theorem State.bump_halted (s : State) (ca n : Nat) : (s.bump ca n).halted = s.halted := rfl
@[simp] theorem State.bump_issuer (s : State) (ca n : Nat) : (s.bump ca n).issuer = s.issuer := rfl
@[simp] theorem State.bump_spareIn (s : State) (ca n : Nat) : (s.bump ca n).spareIn = s.spareIn := rfl
@[simp] theorem State.bump_clusters (s : State) (ca n : Nat) : (s.bump ca n).clusters = s.clusters := rfl
@[simp] theorem State.bump_slices (s : State) (ca n : Nat) : (s.bump ca n).slices = s.slices := rfl
@[simp] theorem State.bump_rx (s : State) (ca n : Nat) : (s.bump ca n).rx = s.rx := rfl
@[simp] theorem State.bump_dir (s : State) (ca n : Nat) : (s.bump ca n).dir = s.dir := rfl
@[simp] theorem State.bump_dirNext (s : State) (ca n : Nat) : (s.bump ca n).dirNext = s.dirNext := rfl
@[simp] theorem State.bump_wings (s : State) (ca n : Nat) : (s.bump ca n).wings = s.wings := rfl
@[simp] theorem State.bump_pools (s : State) (ca n : Nat) : (s.bump ca n).pools = s.pools := rfl
@[simp] theorem State.bump_freeChk (s : State) (ca n : Nat) : (s.bump ca n).freeChk = s.freeChk := rfl
@[simp] theorem State.bump_gddr (s : State) (ca n : Nat) : (s.bump ca n).gddr = s.gddr := rfl
@[simp] theorem State.bump_core (s : State) (ca n : Nat) : (s.bump ca n).core = s.core := rfl
@[simp] theorem State.bump_tm (s : State) (ca n : Nat) : (s.bump ca n).tm = s.tm := rfl
@[simp] theorem State.bump_ports (s : State) (ca n : Nat) : (s.bump ca n).ports = s.ports := rfl
@[simp] theorem State.bump_eyes (s : State) (ca n : Nat) : (s.bump ca n).eyes = s.eyes := rfl
@[simp] theorem State.bump_rclkA (s : State) (ca n : Nat) : (s.bump ca n).rclkA = s.rclkA := rfl
@[simp] theorem State.bump_rclkB (s : State) (ca n : Nat) : (s.bump ca n).rclkB = s.rclkB := rfl
@[simp] theorem State.bump_fabric (s : State) (ca n : Nat) : (s.bump ca n).fabric = s.fabric := rfl
@[simp] theorem State.bump_cipher (s : State) (ca n : Nat) : (s.bump ca n).cipher = s.cipher := rfl
@[simp] theorem State.bump_time (s : State) (ca n : Nat) : (s.bump ca n).time = s.time := rfl
@[simp] theorem State.bump_dcp (s : State) (ca n : Nat) : (s.bump ca n).dcp = s.dcp := rfl
@[simp] theorem State.bump_ctrs (s : State) (ca n : Nat) : (s.bump ca n).ctrs = s.ctrs := rfl
@[simp] theorem State.bump_vigil (s : State) (ca n : Nat) : (s.bump ca n).vigil = s.vigil := rfl
@[simp] theorem State.bump_out (s : State) (ca n : Nat) : (s.bump ca n).out = s.out := rfl
@[simp] theorem State.bump_nextId (s : State) (ca n : Nat) : (s.bump ca n).nextId = s.nextId := rfl
@[simp] theorem State.bump_retired (s : State) (ca n : Nat) : (s.bump ca n).retired = s.retired := rfl
@[simp] theorem State.bump_free (s : State) (ca n : Nat) : (s.bump ca n).free = s.free := rfl
@[simp] theorem State.bump_pending (s : State) (ca n : Nat) : (s.bump ca n).pending = s.pending := rfl

@[simp] theorem State.addCtr_regs (s : State) (n v : Nat) : (s.addCtr n v).regs = s.regs := rfl
@[simp] theorem State.addCtr_dp (s : State) (n v : Nat) : (s.addCtr n v).dp = s.dp := rfl
@[simp] theorem State.addCtr_wideHeld (s : State) (n v : Nat) : (s.addCtr n v).wideHeld = s.wideHeld := rfl
@[simp] theorem State.addCtr_mem (s : State) (n v : Nat) : (s.addCtr n v).mem = s.mem := rfl
@[simp] theorem State.addCtr_boot (s : State) (n v : Nat) : (s.addCtr n v).boot = s.boot := rfl
@[simp] theorem State.addCtr_power (s : State) (n v : Nat) : (s.addCtr n v).power = s.power := rfl
@[simp] theorem State.addCtr_alm (s : State) (n v : Nat) : (s.addCtr n v).alm = s.alm := rfl
@[simp] theorem State.addCtr_threads (s : State) (n v : Nat) : (s.addCtr n v).threads = s.threads := rfl
@[simp] theorem State.addCtr_halted (s : State) (n v : Nat) : (s.addCtr n v).halted = s.halted := rfl
@[simp] theorem State.addCtr_issuer (s : State) (n v : Nat) : (s.addCtr n v).issuer = s.issuer := rfl
@[simp] theorem State.addCtr_spareIn (s : State) (n v : Nat) : (s.addCtr n v).spareIn = s.spareIn := rfl
@[simp] theorem State.addCtr_clusters (s : State) (n v : Nat) : (s.addCtr n v).clusters = s.clusters := rfl
@[simp] theorem State.addCtr_slices (s : State) (n v : Nat) : (s.addCtr n v).slices = s.slices := rfl
@[simp] theorem State.addCtr_rx (s : State) (n v : Nat) : (s.addCtr n v).rx = s.rx := rfl
@[simp] theorem State.addCtr_dir (s : State) (n v : Nat) : (s.addCtr n v).dir = s.dir := rfl
@[simp] theorem State.addCtr_dirNext (s : State) (n v : Nat) : (s.addCtr n v).dirNext = s.dirNext := rfl
@[simp] theorem State.addCtr_wings (s : State) (n v : Nat) : (s.addCtr n v).wings = s.wings := rfl
@[simp] theorem State.addCtr_pools (s : State) (n v : Nat) : (s.addCtr n v).pools = s.pools := rfl
@[simp] theorem State.addCtr_freeChk (s : State) (n v : Nat) : (s.addCtr n v).freeChk = s.freeChk := rfl
@[simp] theorem State.addCtr_gddr (s : State) (n v : Nat) : (s.addCtr n v).gddr = s.gddr := rfl
@[simp] theorem State.addCtr_core (s : State) (n v : Nat) : (s.addCtr n v).core = s.core := rfl
@[simp] theorem State.addCtr_tm (s : State) (n v : Nat) : (s.addCtr n v).tm = s.tm := rfl
@[simp] theorem State.addCtr_ports (s : State) (n v : Nat) : (s.addCtr n v).ports = s.ports := rfl
@[simp] theorem State.addCtr_eyes (s : State) (n v : Nat) : (s.addCtr n v).eyes = s.eyes := rfl
@[simp] theorem State.addCtr_rclkA (s : State) (n v : Nat) : (s.addCtr n v).rclkA = s.rclkA := rfl
@[simp] theorem State.addCtr_rclkB (s : State) (n v : Nat) : (s.addCtr n v).rclkB = s.rclkB := rfl
@[simp] theorem State.addCtr_fabric (s : State) (n v : Nat) : (s.addCtr n v).fabric = s.fabric := rfl
@[simp] theorem State.addCtr_cipher (s : State) (n v : Nat) : (s.addCtr n v).cipher = s.cipher := rfl
@[simp] theorem State.addCtr_time (s : State) (n v : Nat) : (s.addCtr n v).time = s.time := rfl
@[simp] theorem State.addCtr_dcp (s : State) (n v : Nat) : (s.addCtr n v).dcp = s.dcp := rfl
@[simp] theorem State.addCtr_vigil (s : State) (n v : Nat) : (s.addCtr n v).vigil = s.vigil := rfl
@[simp] theorem State.addCtr_out (s : State) (n v : Nat) : (s.addCtr n v).out = s.out := rfl
@[simp] theorem State.addCtr_nextId (s : State) (n v : Nat) : (s.addCtr n v).nextId = s.nextId := rfl
@[simp] theorem State.addCtr_retired (s : State) (n v : Nat) : (s.addCtr n v).retired = s.retired := rfl
@[simp] theorem State.addCtr_free (s : State) (n v : Nat) : (s.addCtr n v).free = s.free := rfl
@[simp] theorem State.addCtr_pending (s : State) (n v : Nat) : (s.addCtr n v).pending = s.pending := rfl

@[simp] theorem State.countDrop_regs (s : State) (site code : Nat) : (s.countDrop site code).regs = s.regs := rfl
@[simp] theorem State.countDrop_dp (s : State) (site code : Nat) : (s.countDrop site code).dp = s.dp := rfl
@[simp] theorem State.countDrop_wideHeld (s : State) (site code : Nat) : (s.countDrop site code).wideHeld = s.wideHeld := rfl
@[simp] theorem State.countDrop_mem (s : State) (site code : Nat) : (s.countDrop site code).mem = s.mem := rfl
@[simp] theorem State.countDrop_boot (s : State) (site code : Nat) : (s.countDrop site code).boot = s.boot := rfl
@[simp] theorem State.countDrop_power (s : State) (site code : Nat) : (s.countDrop site code).power = s.power := rfl
@[simp] theorem State.countDrop_alm (s : State) (site code : Nat) : (s.countDrop site code).alm = s.alm := rfl
@[simp] theorem State.countDrop_threads (s : State) (site code : Nat) : (s.countDrop site code).threads = s.threads := rfl
@[simp] theorem State.countDrop_halted (s : State) (site code : Nat) : (s.countDrop site code).halted = s.halted := rfl
@[simp] theorem State.countDrop_issuer (s : State) (site code : Nat) : (s.countDrop site code).issuer = s.issuer := rfl
@[simp] theorem State.countDrop_spareIn (s : State) (site code : Nat) : (s.countDrop site code).spareIn = s.spareIn := rfl
@[simp] theorem State.countDrop_clusters (s : State) (site code : Nat) : (s.countDrop site code).clusters = s.clusters := rfl
@[simp] theorem State.countDrop_slices (s : State) (site code : Nat) : (s.countDrop site code).slices = s.slices := rfl
@[simp] theorem State.countDrop_rx (s : State) (site code : Nat) : (s.countDrop site code).rx = s.rx := rfl
@[simp] theorem State.countDrop_dir (s : State) (site code : Nat) : (s.countDrop site code).dir = s.dir := rfl
@[simp] theorem State.countDrop_dirNext (s : State) (site code : Nat) : (s.countDrop site code).dirNext = s.dirNext := rfl
@[simp] theorem State.countDrop_wings (s : State) (site code : Nat) : (s.countDrop site code).wings = s.wings := rfl
@[simp] theorem State.countDrop_pools (s : State) (site code : Nat) : (s.countDrop site code).pools = s.pools := rfl
@[simp] theorem State.countDrop_freeChk (s : State) (site code : Nat) : (s.countDrop site code).freeChk = s.freeChk := rfl
@[simp] theorem State.countDrop_gddr (s : State) (site code : Nat) : (s.countDrop site code).gddr = s.gddr := rfl
@[simp] theorem State.countDrop_core (s : State) (site code : Nat) : (s.countDrop site code).core = s.core := rfl
@[simp] theorem State.countDrop_tm (s : State) (site code : Nat) : (s.countDrop site code).tm = s.tm := rfl
@[simp] theorem State.countDrop_ports (s : State) (site code : Nat) : (s.countDrop site code).ports = s.ports := rfl
@[simp] theorem State.countDrop_eyes (s : State) (site code : Nat) : (s.countDrop site code).eyes = s.eyes := rfl
@[simp] theorem State.countDrop_rclkA (s : State) (site code : Nat) : (s.countDrop site code).rclkA = s.rclkA := rfl
@[simp] theorem State.countDrop_rclkB (s : State) (site code : Nat) : (s.countDrop site code).rclkB = s.rclkB := rfl
@[simp] theorem State.countDrop_fabric (s : State) (site code : Nat) : (s.countDrop site code).fabric = s.fabric := rfl
@[simp] theorem State.countDrop_cipher (s : State) (site code : Nat) : (s.countDrop site code).cipher = s.cipher := rfl
@[simp] theorem State.countDrop_time (s : State) (site code : Nat) : (s.countDrop site code).time = s.time := rfl
@[simp] theorem State.countDrop_dcp (s : State) (site code : Nat) : (s.countDrop site code).dcp = s.dcp := rfl
@[simp] theorem State.countDrop_vigil (s : State) (site code : Nat) : (s.countDrop site code).vigil = s.vigil := rfl
@[simp] theorem State.countDrop_out (s : State) (site code : Nat) : (s.countDrop site code).out = s.out := rfl
@[simp] theorem State.countDrop_nextId (s : State) (site code : Nat) : (s.countDrop site code).nextId = s.nextId := rfl
@[simp] theorem State.countDrop_retired (s : State) (site code : Nat) : (s.countDrop site code).retired = s.retired := rfl
@[simp] theorem State.countDrop_free (s : State) (site code : Nat) : (s.countDrop site code).free = s.free := rfl
@[simp] theorem State.countDrop_pending (s : State) (site code : Nat) : (s.countDrop site code).pending = s.pending := rfl

@[simp] theorem State.nextFree_regs (s : State) : (s.nextFree).regs = s.regs := rfl
@[simp] theorem State.nextFree_dp (s : State) : (s.nextFree).dp = s.dp := rfl
@[simp] theorem State.nextFree_wideHeld (s : State) : (s.nextFree).wideHeld = s.wideHeld := rfl
@[simp] theorem State.nextFree_mem (s : State) : (s.nextFree).mem = s.mem := rfl
@[simp] theorem State.nextFree_boot (s : State) : (s.nextFree).boot = s.boot := rfl
@[simp] theorem State.nextFree_power (s : State) : (s.nextFree).power = s.power := rfl
@[simp] theorem State.nextFree_alm (s : State) : (s.nextFree).alm = s.alm := rfl
@[simp] theorem State.nextFree_threads (s : State) : (s.nextFree).threads = s.threads := rfl
@[simp] theorem State.nextFree_halted (s : State) : (s.nextFree).halted = s.halted := rfl
@[simp] theorem State.nextFree_issuer (s : State) : (s.nextFree).issuer = s.issuer := rfl
@[simp] theorem State.nextFree_spareIn (s : State) : (s.nextFree).spareIn = s.spareIn := rfl
@[simp] theorem State.nextFree_clusters (s : State) : (s.nextFree).clusters = s.clusters := rfl
@[simp] theorem State.nextFree_slices (s : State) : (s.nextFree).slices = s.slices := rfl
@[simp] theorem State.nextFree_rx (s : State) : (s.nextFree).rx = s.rx := rfl
@[simp] theorem State.nextFree_dir (s : State) : (s.nextFree).dir = s.dir := rfl
@[simp] theorem State.nextFree_dirNext (s : State) : (s.nextFree).dirNext = s.dirNext := rfl
@[simp] theorem State.nextFree_wings (s : State) : (s.nextFree).wings = s.wings := rfl
@[simp] theorem State.nextFree_pools (s : State) : (s.nextFree).pools = s.pools := rfl
@[simp] theorem State.nextFree_freeChk (s : State) : (s.nextFree).freeChk = s.freeChk := rfl
@[simp] theorem State.nextFree_gddr (s : State) : (s.nextFree).gddr = s.gddr := rfl
@[simp] theorem State.nextFree_core (s : State) : (s.nextFree).core = s.core := rfl
@[simp] theorem State.nextFree_tm (s : State) : (s.nextFree).tm = s.tm := rfl
@[simp] theorem State.nextFree_ports (s : State) : (s.nextFree).ports = s.ports := rfl
@[simp] theorem State.nextFree_eyes (s : State) : (s.nextFree).eyes = s.eyes := rfl
@[simp] theorem State.nextFree_rclkA (s : State) : (s.nextFree).rclkA = s.rclkA := rfl
@[simp] theorem State.nextFree_rclkB (s : State) : (s.nextFree).rclkB = s.rclkB := rfl
@[simp] theorem State.nextFree_fabric (s : State) : (s.nextFree).fabric = s.fabric := rfl
@[simp] theorem State.nextFree_cipher (s : State) : (s.nextFree).cipher = s.cipher := rfl
@[simp] theorem State.nextFree_time (s : State) : (s.nextFree).time = s.time := rfl
@[simp] theorem State.nextFree_dcp (s : State) : (s.nextFree).dcp = s.dcp := rfl
@[simp] theorem State.nextFree_ctrs (s : State) : (s.nextFree).ctrs = s.ctrs := rfl
@[simp] theorem State.nextFree_vigil (s : State) : (s.nextFree).vigil = s.vigil := rfl
@[simp] theorem State.nextFree_out (s : State) : (s.nextFree).out = s.out := rfl
@[simp] theorem State.nextFree_nextId (s : State) : (s.nextFree).nextId = s.nextId := rfl
@[simp] theorem State.nextFree_retired (s : State) : (s.nextFree).retired = s.retired := rfl
@[simp] theorem State.nextFree_pending (s : State) : (s.nextFree).pending = s.pending := rfl

@[simp] theorem State.setThread_regs (s : State) (t : Tid) (th : Thread) : (s.setThread t th).regs = s.regs := rfl
@[simp] theorem State.setThread_dp (s : State) (t : Tid) (th : Thread) : (s.setThread t th).dp = s.dp := rfl
@[simp] theorem State.setThread_wideHeld (s : State) (t : Tid) (th : Thread) : (s.setThread t th).wideHeld = s.wideHeld := rfl
@[simp] theorem State.setThread_mem (s : State) (t : Tid) (th : Thread) : (s.setThread t th).mem = s.mem := rfl
@[simp] theorem State.setThread_boot (s : State) (t : Tid) (th : Thread) : (s.setThread t th).boot = s.boot := rfl
@[simp] theorem State.setThread_power (s : State) (t : Tid) (th : Thread) : (s.setThread t th).power = s.power := rfl
@[simp] theorem State.setThread_alm (s : State) (t : Tid) (th : Thread) : (s.setThread t th).alm = s.alm := rfl
@[simp] theorem State.setThread_halted (s : State) (t : Tid) (th : Thread) : (s.setThread t th).halted = s.halted := rfl
@[simp] theorem State.setThread_issuer (s : State) (t : Tid) (th : Thread) : (s.setThread t th).issuer = s.issuer := rfl
@[simp] theorem State.setThread_spareIn (s : State) (t : Tid) (th : Thread) : (s.setThread t th).spareIn = s.spareIn := rfl
@[simp] theorem State.setThread_clusters (s : State) (t : Tid) (th : Thread) : (s.setThread t th).clusters = s.clusters := rfl
@[simp] theorem State.setThread_slices (s : State) (t : Tid) (th : Thread) : (s.setThread t th).slices = s.slices := rfl
@[simp] theorem State.setThread_rx (s : State) (t : Tid) (th : Thread) : (s.setThread t th).rx = s.rx := rfl
@[simp] theorem State.setThread_dir (s : State) (t : Tid) (th : Thread) : (s.setThread t th).dir = s.dir := rfl
@[simp] theorem State.setThread_dirNext (s : State) (t : Tid) (th : Thread) : (s.setThread t th).dirNext = s.dirNext := rfl
@[simp] theorem State.setThread_wings (s : State) (t : Tid) (th : Thread) : (s.setThread t th).wings = s.wings := rfl
@[simp] theorem State.setThread_pools (s : State) (t : Tid) (th : Thread) : (s.setThread t th).pools = s.pools := rfl
@[simp] theorem State.setThread_freeChk (s : State) (t : Tid) (th : Thread) : (s.setThread t th).freeChk = s.freeChk := rfl
@[simp] theorem State.setThread_gddr (s : State) (t : Tid) (th : Thread) : (s.setThread t th).gddr = s.gddr := rfl
@[simp] theorem State.setThread_core (s : State) (t : Tid) (th : Thread) : (s.setThread t th).core = s.core := rfl
@[simp] theorem State.setThread_tm (s : State) (t : Tid) (th : Thread) : (s.setThread t th).tm = s.tm := rfl
@[simp] theorem State.setThread_ports (s : State) (t : Tid) (th : Thread) : (s.setThread t th).ports = s.ports := rfl
@[simp] theorem State.setThread_eyes (s : State) (t : Tid) (th : Thread) : (s.setThread t th).eyes = s.eyes := rfl
@[simp] theorem State.setThread_rclkA (s : State) (t : Tid) (th : Thread) : (s.setThread t th).rclkA = s.rclkA := rfl
@[simp] theorem State.setThread_rclkB (s : State) (t : Tid) (th : Thread) : (s.setThread t th).rclkB = s.rclkB := rfl
@[simp] theorem State.setThread_fabric (s : State) (t : Tid) (th : Thread) : (s.setThread t th).fabric = s.fabric := rfl
@[simp] theorem State.setThread_cipher (s : State) (t : Tid) (th : Thread) : (s.setThread t th).cipher = s.cipher := rfl
@[simp] theorem State.setThread_time (s : State) (t : Tid) (th : Thread) : (s.setThread t th).time = s.time := rfl
@[simp] theorem State.setThread_dcp (s : State) (t : Tid) (th : Thread) : (s.setThread t th).dcp = s.dcp := rfl
@[simp] theorem State.setThread_ctrs (s : State) (t : Tid) (th : Thread) : (s.setThread t th).ctrs = s.ctrs := rfl
@[simp] theorem State.setThread_vigil (s : State) (t : Tid) (th : Thread) : (s.setThread t th).vigil = s.vigil := rfl
@[simp] theorem State.setThread_out (s : State) (t : Tid) (th : Thread) : (s.setThread t th).out = s.out := rfl
@[simp] theorem State.setThread_nextId (s : State) (t : Tid) (th : Thread) : (s.setThread t th).nextId = s.nextId := rfl
@[simp] theorem State.setThread_retired (s : State) (t : Tid) (th : Thread) : (s.setThread t th).retired = s.retired := rfl
@[simp] theorem State.setThread_free (s : State) (t : Tid) (th : Thread) : (s.setThread t th).free = s.free := rfl
@[simp] theorem State.setThread_pending (s : State) (t : Tid) (th : Thread) : (s.setThread t th).pending = s.pending := rfl

@[simp] theorem State.setThreadN_regs (s : State) (i : Nat) (th : Thread) : (s.setThreadN i th).regs = s.regs := rfl
@[simp] theorem State.setThreadN_dp (s : State) (i : Nat) (th : Thread) : (s.setThreadN i th).dp = s.dp := rfl
@[simp] theorem State.setThreadN_wideHeld (s : State) (i : Nat) (th : Thread) : (s.setThreadN i th).wideHeld = s.wideHeld := rfl
@[simp] theorem State.setThreadN_mem (s : State) (i : Nat) (th : Thread) : (s.setThreadN i th).mem = s.mem := rfl
@[simp] theorem State.setThreadN_boot (s : State) (i : Nat) (th : Thread) : (s.setThreadN i th).boot = s.boot := rfl
@[simp] theorem State.setThreadN_power (s : State) (i : Nat) (th : Thread) : (s.setThreadN i th).power = s.power := rfl
@[simp] theorem State.setThreadN_alm (s : State) (i : Nat) (th : Thread) : (s.setThreadN i th).alm = s.alm := rfl
@[simp] theorem State.setThreadN_halted (s : State) (i : Nat) (th : Thread) : (s.setThreadN i th).halted = s.halted := rfl
@[simp] theorem State.setThreadN_issuer (s : State) (i : Nat) (th : Thread) : (s.setThreadN i th).issuer = s.issuer := rfl
@[simp] theorem State.setThreadN_spareIn (s : State) (i : Nat) (th : Thread) : (s.setThreadN i th).spareIn = s.spareIn := rfl
@[simp] theorem State.setThreadN_clusters (s : State) (i : Nat) (th : Thread) : (s.setThreadN i th).clusters = s.clusters := rfl
@[simp] theorem State.setThreadN_slices (s : State) (i : Nat) (th : Thread) : (s.setThreadN i th).slices = s.slices := rfl
@[simp] theorem State.setThreadN_rx (s : State) (i : Nat) (th : Thread) : (s.setThreadN i th).rx = s.rx := rfl
@[simp] theorem State.setThreadN_dir (s : State) (i : Nat) (th : Thread) : (s.setThreadN i th).dir = s.dir := rfl
@[simp] theorem State.setThreadN_dirNext (s : State) (i : Nat) (th : Thread) : (s.setThreadN i th).dirNext = s.dirNext := rfl
@[simp] theorem State.setThreadN_wings (s : State) (i : Nat) (th : Thread) : (s.setThreadN i th).wings = s.wings := rfl
@[simp] theorem State.setThreadN_pools (s : State) (i : Nat) (th : Thread) : (s.setThreadN i th).pools = s.pools := rfl
@[simp] theorem State.setThreadN_freeChk (s : State) (i : Nat) (th : Thread) : (s.setThreadN i th).freeChk = s.freeChk := rfl
@[simp] theorem State.setThreadN_gddr (s : State) (i : Nat) (th : Thread) : (s.setThreadN i th).gddr = s.gddr := rfl
@[simp] theorem State.setThreadN_core (s : State) (i : Nat) (th : Thread) : (s.setThreadN i th).core = s.core := rfl
@[simp] theorem State.setThreadN_tm (s : State) (i : Nat) (th : Thread) : (s.setThreadN i th).tm = s.tm := rfl
@[simp] theorem State.setThreadN_ports (s : State) (i : Nat) (th : Thread) : (s.setThreadN i th).ports = s.ports := rfl
@[simp] theorem State.setThreadN_eyes (s : State) (i : Nat) (th : Thread) : (s.setThreadN i th).eyes = s.eyes := rfl
@[simp] theorem State.setThreadN_rclkA (s : State) (i : Nat) (th : Thread) : (s.setThreadN i th).rclkA = s.rclkA := rfl
@[simp] theorem State.setThreadN_rclkB (s : State) (i : Nat) (th : Thread) : (s.setThreadN i th).rclkB = s.rclkB := rfl
@[simp] theorem State.setThreadN_fabric (s : State) (i : Nat) (th : Thread) : (s.setThreadN i th).fabric = s.fabric := rfl
@[simp] theorem State.setThreadN_cipher (s : State) (i : Nat) (th : Thread) : (s.setThreadN i th).cipher = s.cipher := rfl
@[simp] theorem State.setThreadN_time (s : State) (i : Nat) (th : Thread) : (s.setThreadN i th).time = s.time := rfl
@[simp] theorem State.setThreadN_dcp (s : State) (i : Nat) (th : Thread) : (s.setThreadN i th).dcp = s.dcp := rfl
@[simp] theorem State.setThreadN_ctrs (s : State) (i : Nat) (th : Thread) : (s.setThreadN i th).ctrs = s.ctrs := rfl
@[simp] theorem State.setThreadN_vigil (s : State) (i : Nat) (th : Thread) : (s.setThreadN i th).vigil = s.vigil := rfl
@[simp] theorem State.setThreadN_out (s : State) (i : Nat) (th : Thread) : (s.setThreadN i th).out = s.out := rfl
@[simp] theorem State.setThreadN_nextId (s : State) (i : Nat) (th : Thread) : (s.setThreadN i th).nextId = s.nextId := rfl
@[simp] theorem State.setThreadN_retired (s : State) (i : Nat) (th : Thread) : (s.setThreadN i th).retired = s.retired := rfl
@[simp] theorem State.setThreadN_free (s : State) (i : Nat) (th : Thread) : (s.setThreadN i th).free = s.free := rfl
@[simp] theorem State.setThreadN_pending (s : State) (i : Nat) (th : Thread) : (s.setThreadN i th).pending = s.pending := rfl

@[simp] theorem State.setCluster_regs (s : State) (k : Nat) (c : Cluster) : (s.setCluster k c).regs = s.regs := rfl
@[simp] theorem State.setCluster_dp (s : State) (k : Nat) (c : Cluster) : (s.setCluster k c).dp = s.dp := rfl
@[simp] theorem State.setCluster_wideHeld (s : State) (k : Nat) (c : Cluster) : (s.setCluster k c).wideHeld = s.wideHeld := rfl
@[simp] theorem State.setCluster_mem (s : State) (k : Nat) (c : Cluster) : (s.setCluster k c).mem = s.mem := rfl
@[simp] theorem State.setCluster_boot (s : State) (k : Nat) (c : Cluster) : (s.setCluster k c).boot = s.boot := rfl
@[simp] theorem State.setCluster_power (s : State) (k : Nat) (c : Cluster) : (s.setCluster k c).power = s.power := rfl
@[simp] theorem State.setCluster_alm (s : State) (k : Nat) (c : Cluster) : (s.setCluster k c).alm = s.alm := rfl
@[simp] theorem State.setCluster_threads (s : State) (k : Nat) (c : Cluster) : (s.setCluster k c).threads = s.threads := rfl
@[simp] theorem State.setCluster_halted (s : State) (k : Nat) (c : Cluster) : (s.setCluster k c).halted = s.halted := rfl
@[simp] theorem State.setCluster_issuer (s : State) (k : Nat) (c : Cluster) : (s.setCluster k c).issuer = s.issuer := rfl
@[simp] theorem State.setCluster_spareIn (s : State) (k : Nat) (c : Cluster) : (s.setCluster k c).spareIn = s.spareIn := rfl
@[simp] theorem State.setCluster_slices (s : State) (k : Nat) (c : Cluster) : (s.setCluster k c).slices = s.slices := rfl
@[simp] theorem State.setCluster_rx (s : State) (k : Nat) (c : Cluster) : (s.setCluster k c).rx = s.rx := rfl
@[simp] theorem State.setCluster_dir (s : State) (k : Nat) (c : Cluster) : (s.setCluster k c).dir = s.dir := rfl
@[simp] theorem State.setCluster_dirNext (s : State) (k : Nat) (c : Cluster) : (s.setCluster k c).dirNext = s.dirNext := rfl
@[simp] theorem State.setCluster_wings (s : State) (k : Nat) (c : Cluster) : (s.setCluster k c).wings = s.wings := rfl
@[simp] theorem State.setCluster_pools (s : State) (k : Nat) (c : Cluster) : (s.setCluster k c).pools = s.pools := rfl
@[simp] theorem State.setCluster_freeChk (s : State) (k : Nat) (c : Cluster) : (s.setCluster k c).freeChk = s.freeChk := rfl
@[simp] theorem State.setCluster_gddr (s : State) (k : Nat) (c : Cluster) : (s.setCluster k c).gddr = s.gddr := rfl
@[simp] theorem State.setCluster_core (s : State) (k : Nat) (c : Cluster) : (s.setCluster k c).core = s.core := rfl
@[simp] theorem State.setCluster_tm (s : State) (k : Nat) (c : Cluster) : (s.setCluster k c).tm = s.tm := rfl
@[simp] theorem State.setCluster_ports (s : State) (k : Nat) (c : Cluster) : (s.setCluster k c).ports = s.ports := rfl
@[simp] theorem State.setCluster_eyes (s : State) (k : Nat) (c : Cluster) : (s.setCluster k c).eyes = s.eyes := rfl
@[simp] theorem State.setCluster_rclkA (s : State) (k : Nat) (c : Cluster) : (s.setCluster k c).rclkA = s.rclkA := rfl
@[simp] theorem State.setCluster_rclkB (s : State) (k : Nat) (c : Cluster) : (s.setCluster k c).rclkB = s.rclkB := rfl
@[simp] theorem State.setCluster_fabric (s : State) (k : Nat) (c : Cluster) : (s.setCluster k c).fabric = s.fabric := rfl
@[simp] theorem State.setCluster_cipher (s : State) (k : Nat) (c : Cluster) : (s.setCluster k c).cipher = s.cipher := rfl
@[simp] theorem State.setCluster_time (s : State) (k : Nat) (c : Cluster) : (s.setCluster k c).time = s.time := rfl
@[simp] theorem State.setCluster_dcp (s : State) (k : Nat) (c : Cluster) : (s.setCluster k c).dcp = s.dcp := rfl
@[simp] theorem State.setCluster_ctrs (s : State) (k : Nat) (c : Cluster) : (s.setCluster k c).ctrs = s.ctrs := rfl
@[simp] theorem State.setCluster_vigil (s : State) (k : Nat) (c : Cluster) : (s.setCluster k c).vigil = s.vigil := rfl
@[simp] theorem State.setCluster_out (s : State) (k : Nat) (c : Cluster) : (s.setCluster k c).out = s.out := rfl
@[simp] theorem State.setCluster_nextId (s : State) (k : Nat) (c : Cluster) : (s.setCluster k c).nextId = s.nextId := rfl
@[simp] theorem State.setCluster_retired (s : State) (k : Nat) (c : Cluster) : (s.setCluster k c).retired = s.retired := rfl
@[simp] theorem State.setCluster_free (s : State) (k : Nat) (c : Cluster) : (s.setCluster k c).free = s.free := rfl
@[simp] theorem State.setCluster_pending (s : State) (k : Nat) (c : Cluster) : (s.setCluster k c).pending = s.pending := rfl

@[simp] theorem State.setSlice_regs (s : State) (i : Nat) (x : Slice) : (s.setSlice i x).regs = s.regs := rfl
@[simp] theorem State.setSlice_dp (s : State) (i : Nat) (x : Slice) : (s.setSlice i x).dp = s.dp := rfl
@[simp] theorem State.setSlice_wideHeld (s : State) (i : Nat) (x : Slice) : (s.setSlice i x).wideHeld = s.wideHeld := rfl
@[simp] theorem State.setSlice_mem (s : State) (i : Nat) (x : Slice) : (s.setSlice i x).mem = s.mem := rfl
@[simp] theorem State.setSlice_boot (s : State) (i : Nat) (x : Slice) : (s.setSlice i x).boot = s.boot := rfl
@[simp] theorem State.setSlice_power (s : State) (i : Nat) (x : Slice) : (s.setSlice i x).power = s.power := rfl
@[simp] theorem State.setSlice_alm (s : State) (i : Nat) (x : Slice) : (s.setSlice i x).alm = s.alm := rfl
@[simp] theorem State.setSlice_threads (s : State) (i : Nat) (x : Slice) : (s.setSlice i x).threads = s.threads := rfl
@[simp] theorem State.setSlice_halted (s : State) (i : Nat) (x : Slice) : (s.setSlice i x).halted = s.halted := rfl
@[simp] theorem State.setSlice_issuer (s : State) (i : Nat) (x : Slice) : (s.setSlice i x).issuer = s.issuer := rfl
@[simp] theorem State.setSlice_spareIn (s : State) (i : Nat) (x : Slice) : (s.setSlice i x).spareIn = s.spareIn := rfl
@[simp] theorem State.setSlice_clusters (s : State) (i : Nat) (x : Slice) : (s.setSlice i x).clusters = s.clusters := rfl
@[simp] theorem State.setSlice_rx (s : State) (i : Nat) (x : Slice) : (s.setSlice i x).rx = s.rx := rfl
@[simp] theorem State.setSlice_dir (s : State) (i : Nat) (x : Slice) : (s.setSlice i x).dir = s.dir := rfl
@[simp] theorem State.setSlice_dirNext (s : State) (i : Nat) (x : Slice) : (s.setSlice i x).dirNext = s.dirNext := rfl
@[simp] theorem State.setSlice_wings (s : State) (i : Nat) (x : Slice) : (s.setSlice i x).wings = s.wings := rfl
@[simp] theorem State.setSlice_pools (s : State) (i : Nat) (x : Slice) : (s.setSlice i x).pools = s.pools := rfl
@[simp] theorem State.setSlice_freeChk (s : State) (i : Nat) (x : Slice) : (s.setSlice i x).freeChk = s.freeChk := rfl
@[simp] theorem State.setSlice_gddr (s : State) (i : Nat) (x : Slice) : (s.setSlice i x).gddr = s.gddr := rfl
@[simp] theorem State.setSlice_core (s : State) (i : Nat) (x : Slice) : (s.setSlice i x).core = s.core := rfl
@[simp] theorem State.setSlice_tm (s : State) (i : Nat) (x : Slice) : (s.setSlice i x).tm = s.tm := rfl
@[simp] theorem State.setSlice_ports (s : State) (i : Nat) (x : Slice) : (s.setSlice i x).ports = s.ports := rfl
@[simp] theorem State.setSlice_eyes (s : State) (i : Nat) (x : Slice) : (s.setSlice i x).eyes = s.eyes := rfl
@[simp] theorem State.setSlice_rclkA (s : State) (i : Nat) (x : Slice) : (s.setSlice i x).rclkA = s.rclkA := rfl
@[simp] theorem State.setSlice_rclkB (s : State) (i : Nat) (x : Slice) : (s.setSlice i x).rclkB = s.rclkB := rfl
@[simp] theorem State.setSlice_fabric (s : State) (i : Nat) (x : Slice) : (s.setSlice i x).fabric = s.fabric := rfl
@[simp] theorem State.setSlice_cipher (s : State) (i : Nat) (x : Slice) : (s.setSlice i x).cipher = s.cipher := rfl
@[simp] theorem State.setSlice_time (s : State) (i : Nat) (x : Slice) : (s.setSlice i x).time = s.time := rfl
@[simp] theorem State.setSlice_dcp (s : State) (i : Nat) (x : Slice) : (s.setSlice i x).dcp = s.dcp := rfl
@[simp] theorem State.setSlice_ctrs (s : State) (i : Nat) (x : Slice) : (s.setSlice i x).ctrs = s.ctrs := rfl
@[simp] theorem State.setSlice_vigil (s : State) (i : Nat) (x : Slice) : (s.setSlice i x).vigil = s.vigil := rfl
@[simp] theorem State.setSlice_out (s : State) (i : Nat) (x : Slice) : (s.setSlice i x).out = s.out := rfl
@[simp] theorem State.setSlice_nextId (s : State) (i : Nat) (x : Slice) : (s.setSlice i x).nextId = s.nextId := rfl
@[simp] theorem State.setSlice_retired (s : State) (i : Nat) (x : Slice) : (s.setSlice i x).retired = s.retired := rfl
@[simp] theorem State.setSlice_free (s : State) (i : Nat) (x : Slice) : (s.setSlice i x).free = s.free := rfl
@[simp] theorem State.setSlice_pending (s : State) (i : Nat) (x : Slice) : (s.setSlice i x).pending = s.pending := rfl

@[simp] theorem State.setWing_regs (s : State) (w : Nat) (x : Wing) : (s.setWing w x).regs = s.regs := rfl
@[simp] theorem State.setWing_dp (s : State) (w : Nat) (x : Wing) : (s.setWing w x).dp = s.dp := rfl
@[simp] theorem State.setWing_wideHeld (s : State) (w : Nat) (x : Wing) : (s.setWing w x).wideHeld = s.wideHeld := rfl
@[simp] theorem State.setWing_mem (s : State) (w : Nat) (x : Wing) : (s.setWing w x).mem = s.mem := rfl
@[simp] theorem State.setWing_boot (s : State) (w : Nat) (x : Wing) : (s.setWing w x).boot = s.boot := rfl
@[simp] theorem State.setWing_power (s : State) (w : Nat) (x : Wing) : (s.setWing w x).power = s.power := rfl
@[simp] theorem State.setWing_alm (s : State) (w : Nat) (x : Wing) : (s.setWing w x).alm = s.alm := rfl
@[simp] theorem State.setWing_threads (s : State) (w : Nat) (x : Wing) : (s.setWing w x).threads = s.threads := rfl
@[simp] theorem State.setWing_halted (s : State) (w : Nat) (x : Wing) : (s.setWing w x).halted = s.halted := rfl
@[simp] theorem State.setWing_issuer (s : State) (w : Nat) (x : Wing) : (s.setWing w x).issuer = s.issuer := rfl
@[simp] theorem State.setWing_spareIn (s : State) (w : Nat) (x : Wing) : (s.setWing w x).spareIn = s.spareIn := rfl
@[simp] theorem State.setWing_clusters (s : State) (w : Nat) (x : Wing) : (s.setWing w x).clusters = s.clusters := rfl
@[simp] theorem State.setWing_slices (s : State) (w : Nat) (x : Wing) : (s.setWing w x).slices = s.slices := rfl
@[simp] theorem State.setWing_rx (s : State) (w : Nat) (x : Wing) : (s.setWing w x).rx = s.rx := rfl
@[simp] theorem State.setWing_dir (s : State) (w : Nat) (x : Wing) : (s.setWing w x).dir = s.dir := rfl
@[simp] theorem State.setWing_dirNext (s : State) (w : Nat) (x : Wing) : (s.setWing w x).dirNext = s.dirNext := rfl
@[simp] theorem State.setWing_pools (s : State) (w : Nat) (x : Wing) : (s.setWing w x).pools = s.pools := rfl
@[simp] theorem State.setWing_freeChk (s : State) (w : Nat) (x : Wing) : (s.setWing w x).freeChk = s.freeChk := rfl
@[simp] theorem State.setWing_gddr (s : State) (w : Nat) (x : Wing) : (s.setWing w x).gddr = s.gddr := rfl
@[simp] theorem State.setWing_core (s : State) (w : Nat) (x : Wing) : (s.setWing w x).core = s.core := rfl
@[simp] theorem State.setWing_tm (s : State) (w : Nat) (x : Wing) : (s.setWing w x).tm = s.tm := rfl
@[simp] theorem State.setWing_ports (s : State) (w : Nat) (x : Wing) : (s.setWing w x).ports = s.ports := rfl
@[simp] theorem State.setWing_eyes (s : State) (w : Nat) (x : Wing) : (s.setWing w x).eyes = s.eyes := rfl
@[simp] theorem State.setWing_rclkA (s : State) (w : Nat) (x : Wing) : (s.setWing w x).rclkA = s.rclkA := rfl
@[simp] theorem State.setWing_rclkB (s : State) (w : Nat) (x : Wing) : (s.setWing w x).rclkB = s.rclkB := rfl
@[simp] theorem State.setWing_fabric (s : State) (w : Nat) (x : Wing) : (s.setWing w x).fabric = s.fabric := rfl
@[simp] theorem State.setWing_cipher (s : State) (w : Nat) (x : Wing) : (s.setWing w x).cipher = s.cipher := rfl
@[simp] theorem State.setWing_time (s : State) (w : Nat) (x : Wing) : (s.setWing w x).time = s.time := rfl
@[simp] theorem State.setWing_dcp (s : State) (w : Nat) (x : Wing) : (s.setWing w x).dcp = s.dcp := rfl
@[simp] theorem State.setWing_ctrs (s : State) (w : Nat) (x : Wing) : (s.setWing w x).ctrs = s.ctrs := rfl
@[simp] theorem State.setWing_vigil (s : State) (w : Nat) (x : Wing) : (s.setWing w x).vigil = s.vigil := rfl
@[simp] theorem State.setWing_out (s : State) (w : Nat) (x : Wing) : (s.setWing w x).out = s.out := rfl
@[simp] theorem State.setWing_nextId (s : State) (w : Nat) (x : Wing) : (s.setWing w x).nextId = s.nextId := rfl
@[simp] theorem State.setWing_retired (s : State) (w : Nat) (x : Wing) : (s.setWing w x).retired = s.retired := rfl
@[simp] theorem State.setWing_free (s : State) (w : Nat) (x : Wing) : (s.setWing w x).free = s.free := rfl
@[simp] theorem State.setWing_pending (s : State) (w : Nat) (x : Wing) : (s.setWing w x).pending = s.pending := rfl

@[simp] theorem State.setPort_regs (s : State) (p : Nat) (x : Port) : (s.setPort p x).regs = s.regs := rfl
@[simp] theorem State.setPort_dp (s : State) (p : Nat) (x : Port) : (s.setPort p x).dp = s.dp := rfl
@[simp] theorem State.setPort_wideHeld (s : State) (p : Nat) (x : Port) : (s.setPort p x).wideHeld = s.wideHeld := rfl
@[simp] theorem State.setPort_mem (s : State) (p : Nat) (x : Port) : (s.setPort p x).mem = s.mem := rfl
@[simp] theorem State.setPort_boot (s : State) (p : Nat) (x : Port) : (s.setPort p x).boot = s.boot := rfl
@[simp] theorem State.setPort_power (s : State) (p : Nat) (x : Port) : (s.setPort p x).power = s.power := rfl
@[simp] theorem State.setPort_alm (s : State) (p : Nat) (x : Port) : (s.setPort p x).alm = s.alm := rfl
@[simp] theorem State.setPort_threads (s : State) (p : Nat) (x : Port) : (s.setPort p x).threads = s.threads := rfl
@[simp] theorem State.setPort_halted (s : State) (p : Nat) (x : Port) : (s.setPort p x).halted = s.halted := rfl
@[simp] theorem State.setPort_issuer (s : State) (p : Nat) (x : Port) : (s.setPort p x).issuer = s.issuer := rfl
@[simp] theorem State.setPort_spareIn (s : State) (p : Nat) (x : Port) : (s.setPort p x).spareIn = s.spareIn := rfl
@[simp] theorem State.setPort_clusters (s : State) (p : Nat) (x : Port) : (s.setPort p x).clusters = s.clusters := rfl
@[simp] theorem State.setPort_slices (s : State) (p : Nat) (x : Port) : (s.setPort p x).slices = s.slices := rfl
@[simp] theorem State.setPort_rx (s : State) (p : Nat) (x : Port) : (s.setPort p x).rx = s.rx := rfl
@[simp] theorem State.setPort_dir (s : State) (p : Nat) (x : Port) : (s.setPort p x).dir = s.dir := rfl
@[simp] theorem State.setPort_dirNext (s : State) (p : Nat) (x : Port) : (s.setPort p x).dirNext = s.dirNext := rfl
@[simp] theorem State.setPort_wings (s : State) (p : Nat) (x : Port) : (s.setPort p x).wings = s.wings := rfl
@[simp] theorem State.setPort_pools (s : State) (p : Nat) (x : Port) : (s.setPort p x).pools = s.pools := rfl
@[simp] theorem State.setPort_freeChk (s : State) (p : Nat) (x : Port) : (s.setPort p x).freeChk = s.freeChk := rfl
@[simp] theorem State.setPort_gddr (s : State) (p : Nat) (x : Port) : (s.setPort p x).gddr = s.gddr := rfl
@[simp] theorem State.setPort_core (s : State) (p : Nat) (x : Port) : (s.setPort p x).core = s.core := rfl
@[simp] theorem State.setPort_tm (s : State) (p : Nat) (x : Port) : (s.setPort p x).tm = s.tm := rfl
@[simp] theorem State.setPort_eyes (s : State) (p : Nat) (x : Port) : (s.setPort p x).eyes = s.eyes := rfl
@[simp] theorem State.setPort_rclkA (s : State) (p : Nat) (x : Port) : (s.setPort p x).rclkA = s.rclkA := rfl
@[simp] theorem State.setPort_rclkB (s : State) (p : Nat) (x : Port) : (s.setPort p x).rclkB = s.rclkB := rfl
@[simp] theorem State.setPort_fabric (s : State) (p : Nat) (x : Port) : (s.setPort p x).fabric = s.fabric := rfl
@[simp] theorem State.setPort_cipher (s : State) (p : Nat) (x : Port) : (s.setPort p x).cipher = s.cipher := rfl
@[simp] theorem State.setPort_time (s : State) (p : Nat) (x : Port) : (s.setPort p x).time = s.time := rfl
@[simp] theorem State.setPort_dcp (s : State) (p : Nat) (x : Port) : (s.setPort p x).dcp = s.dcp := rfl
@[simp] theorem State.setPort_ctrs (s : State) (p : Nat) (x : Port) : (s.setPort p x).ctrs = s.ctrs := rfl
@[simp] theorem State.setPort_vigil (s : State) (p : Nat) (x : Port) : (s.setPort p x).vigil = s.vigil := rfl
@[simp] theorem State.setPort_out (s : State) (p : Nat) (x : Port) : (s.setPort p x).out = s.out := rfl
@[simp] theorem State.setPort_nextId (s : State) (p : Nat) (x : Port) : (s.setPort p x).nextId = s.nextId := rfl
@[simp] theorem State.setPort_retired (s : State) (p : Nat) (x : Port) : (s.setPort p x).retired = s.retired := rfl
@[simp] theorem State.setPort_free (s : State) (p : Nat) (x : Port) : (s.setPort p x).free = s.free := rfl
@[simp] theorem State.setPort_pending (s : State) (p : Nat) (x : Port) : (s.setPort p x).pending = s.pending := rfl

@[simp] theorem State.setQueue_regs (s : State) (q : Nat) (x : Queue) : (s.setQueue q x).regs = s.regs := rfl
@[simp] theorem State.setQueue_dp (s : State) (q : Nat) (x : Queue) : (s.setQueue q x).dp = s.dp := rfl
@[simp] theorem State.setQueue_wideHeld (s : State) (q : Nat) (x : Queue) : (s.setQueue q x).wideHeld = s.wideHeld := rfl
@[simp] theorem State.setQueue_mem (s : State) (q : Nat) (x : Queue) : (s.setQueue q x).mem = s.mem := rfl
@[simp] theorem State.setQueue_boot (s : State) (q : Nat) (x : Queue) : (s.setQueue q x).boot = s.boot := rfl
@[simp] theorem State.setQueue_power (s : State) (q : Nat) (x : Queue) : (s.setQueue q x).power = s.power := rfl
@[simp] theorem State.setQueue_alm (s : State) (q : Nat) (x : Queue) : (s.setQueue q x).alm = s.alm := rfl
@[simp] theorem State.setQueue_threads (s : State) (q : Nat) (x : Queue) : (s.setQueue q x).threads = s.threads := rfl
@[simp] theorem State.setQueue_halted (s : State) (q : Nat) (x : Queue) : (s.setQueue q x).halted = s.halted := rfl
@[simp] theorem State.setQueue_issuer (s : State) (q : Nat) (x : Queue) : (s.setQueue q x).issuer = s.issuer := rfl
@[simp] theorem State.setQueue_spareIn (s : State) (q : Nat) (x : Queue) : (s.setQueue q x).spareIn = s.spareIn := rfl
@[simp] theorem State.setQueue_clusters (s : State) (q : Nat) (x : Queue) : (s.setQueue q x).clusters = s.clusters := rfl
@[simp] theorem State.setQueue_slices (s : State) (q : Nat) (x : Queue) : (s.setQueue q x).slices = s.slices := rfl
@[simp] theorem State.setQueue_rx (s : State) (q : Nat) (x : Queue) : (s.setQueue q x).rx = s.rx := rfl
@[simp] theorem State.setQueue_dir (s : State) (q : Nat) (x : Queue) : (s.setQueue q x).dir = s.dir := rfl
@[simp] theorem State.setQueue_dirNext (s : State) (q : Nat) (x : Queue) : (s.setQueue q x).dirNext = s.dirNext := rfl
@[simp] theorem State.setQueue_wings (s : State) (q : Nat) (x : Queue) : (s.setQueue q x).wings = s.wings := rfl
@[simp] theorem State.setQueue_pools (s : State) (q : Nat) (x : Queue) : (s.setQueue q x).pools = s.pools := rfl
@[simp] theorem State.setQueue_freeChk (s : State) (q : Nat) (x : Queue) : (s.setQueue q x).freeChk = s.freeChk := rfl
@[simp] theorem State.setQueue_gddr (s : State) (q : Nat) (x : Queue) : (s.setQueue q x).gddr = s.gddr := rfl
@[simp] theorem State.setQueue_core (s : State) (q : Nat) (x : Queue) : (s.setQueue q x).core = s.core := rfl
@[simp] theorem State.setQueue_ports (s : State) (q : Nat) (x : Queue) : (s.setQueue q x).ports = s.ports := rfl
@[simp] theorem State.setQueue_eyes (s : State) (q : Nat) (x : Queue) : (s.setQueue q x).eyes = s.eyes := rfl
@[simp] theorem State.setQueue_rclkA (s : State) (q : Nat) (x : Queue) : (s.setQueue q x).rclkA = s.rclkA := rfl
@[simp] theorem State.setQueue_rclkB (s : State) (q : Nat) (x : Queue) : (s.setQueue q x).rclkB = s.rclkB := rfl
@[simp] theorem State.setQueue_fabric (s : State) (q : Nat) (x : Queue) : (s.setQueue q x).fabric = s.fabric := rfl
@[simp] theorem State.setQueue_cipher (s : State) (q : Nat) (x : Queue) : (s.setQueue q x).cipher = s.cipher := rfl
@[simp] theorem State.setQueue_time (s : State) (q : Nat) (x : Queue) : (s.setQueue q x).time = s.time := rfl
@[simp] theorem State.setQueue_dcp (s : State) (q : Nat) (x : Queue) : (s.setQueue q x).dcp = s.dcp := rfl
@[simp] theorem State.setQueue_ctrs (s : State) (q : Nat) (x : Queue) : (s.setQueue q x).ctrs = s.ctrs := rfl
@[simp] theorem State.setQueue_vigil (s : State) (q : Nat) (x : Queue) : (s.setQueue q x).vigil = s.vigil := rfl
@[simp] theorem State.setQueue_out (s : State) (q : Nat) (x : Queue) : (s.setQueue q x).out = s.out := rfl
@[simp] theorem State.setQueue_nextId (s : State) (q : Nat) (x : Queue) : (s.setQueue q x).nextId = s.nextId := rfl
@[simp] theorem State.setQueue_retired (s : State) (q : Nat) (x : Queue) : (s.setQueue q x).retired = s.retired := rfl
@[simp] theorem State.setQueue_free (s : State) (q : Nat) (x : Queue) : (s.setQueue q x).free = s.free := rfl
@[simp] theorem State.setQueue_pending (s : State) (q : Nat) (x : Queue) : (s.setQueue q x).pending = s.pending := rfl

@[simp] theorem State.emit_regs (s : State) (o : Out) : (s.emit o).regs = s.regs := rfl
@[simp] theorem State.emit_dp (s : State) (o : Out) : (s.emit o).dp = s.dp := rfl
@[simp] theorem State.emit_wideHeld (s : State) (o : Out) : (s.emit o).wideHeld = s.wideHeld := rfl
@[simp] theorem State.emit_mem (s : State) (o : Out) : (s.emit o).mem = s.mem := rfl
@[simp] theorem State.emit_boot (s : State) (o : Out) : (s.emit o).boot = s.boot := rfl
@[simp] theorem State.emit_power (s : State) (o : Out) : (s.emit o).power = s.power := rfl
@[simp] theorem State.emit_alm (s : State) (o : Out) : (s.emit o).alm = s.alm := rfl
@[simp] theorem State.emit_threads (s : State) (o : Out) : (s.emit o).threads = s.threads := rfl
@[simp] theorem State.emit_halted (s : State) (o : Out) : (s.emit o).halted = s.halted := rfl
@[simp] theorem State.emit_issuer (s : State) (o : Out) : (s.emit o).issuer = s.issuer := rfl
@[simp] theorem State.emit_spareIn (s : State) (o : Out) : (s.emit o).spareIn = s.spareIn := rfl
@[simp] theorem State.emit_clusters (s : State) (o : Out) : (s.emit o).clusters = s.clusters := rfl
@[simp] theorem State.emit_slices (s : State) (o : Out) : (s.emit o).slices = s.slices := rfl
@[simp] theorem State.emit_rx (s : State) (o : Out) : (s.emit o).rx = s.rx := rfl
@[simp] theorem State.emit_dir (s : State) (o : Out) : (s.emit o).dir = s.dir := rfl
@[simp] theorem State.emit_dirNext (s : State) (o : Out) : (s.emit o).dirNext = s.dirNext := rfl
@[simp] theorem State.emit_wings (s : State) (o : Out) : (s.emit o).wings = s.wings := rfl
@[simp] theorem State.emit_pools (s : State) (o : Out) : (s.emit o).pools = s.pools := rfl
@[simp] theorem State.emit_freeChk (s : State) (o : Out) : (s.emit o).freeChk = s.freeChk := rfl
@[simp] theorem State.emit_gddr (s : State) (o : Out) : (s.emit o).gddr = s.gddr := rfl
@[simp] theorem State.emit_core (s : State) (o : Out) : (s.emit o).core = s.core := rfl
@[simp] theorem State.emit_tm (s : State) (o : Out) : (s.emit o).tm = s.tm := rfl
@[simp] theorem State.emit_ports (s : State) (o : Out) : (s.emit o).ports = s.ports := rfl
@[simp] theorem State.emit_eyes (s : State) (o : Out) : (s.emit o).eyes = s.eyes := rfl
@[simp] theorem State.emit_rclkA (s : State) (o : Out) : (s.emit o).rclkA = s.rclkA := rfl
@[simp] theorem State.emit_rclkB (s : State) (o : Out) : (s.emit o).rclkB = s.rclkB := rfl
@[simp] theorem State.emit_fabric (s : State) (o : Out) : (s.emit o).fabric = s.fabric := rfl
@[simp] theorem State.emit_cipher (s : State) (o : Out) : (s.emit o).cipher = s.cipher := rfl
@[simp] theorem State.emit_time (s : State) (o : Out) : (s.emit o).time = s.time := rfl
@[simp] theorem State.emit_dcp (s : State) (o : Out) : (s.emit o).dcp = s.dcp := rfl
@[simp] theorem State.emit_ctrs (s : State) (o : Out) : (s.emit o).ctrs = s.ctrs := rfl
@[simp] theorem State.emit_vigil (s : State) (o : Out) : (s.emit o).vigil = s.vigil := rfl
@[simp] theorem State.emit_nextId (s : State) (o : Out) : (s.emit o).nextId = s.nextId := rfl
@[simp] theorem State.emit_retired (s : State) (o : Out) : (s.emit o).retired = s.retired := rfl
@[simp] theorem State.emit_free (s : State) (o : Out) : (s.emit o).free = s.free := rfl
@[simp] theorem State.emit_pending (s : State) (o : Out) : (s.emit o).pending = s.pending := rfl

@[simp] theorem State.noteIssue_regs (s : State) (t : Tid) : (s.noteIssue t).regs = s.regs := rfl
@[simp] theorem State.noteIssue_dp (s : State) (t : Tid) : (s.noteIssue t).dp = s.dp := rfl
@[simp] theorem State.noteIssue_wideHeld (s : State) (t : Tid) : (s.noteIssue t).wideHeld = s.wideHeld := rfl
@[simp] theorem State.noteIssue_mem (s : State) (t : Tid) : (s.noteIssue t).mem = s.mem := rfl
@[simp] theorem State.noteIssue_boot (s : State) (t : Tid) : (s.noteIssue t).boot = s.boot := rfl
@[simp] theorem State.noteIssue_alm (s : State) (t : Tid) : (s.noteIssue t).alm = s.alm := rfl
@[simp] theorem State.noteIssue_threads (s : State) (t : Tid) : (s.noteIssue t).threads = s.threads := rfl
@[simp] theorem State.noteIssue_halted (s : State) (t : Tid) : (s.noteIssue t).halted = s.halted := rfl
@[simp] theorem State.noteIssue_spareIn (s : State) (t : Tid) : (s.noteIssue t).spareIn = s.spareIn := rfl
@[simp] theorem State.noteIssue_clusters (s : State) (t : Tid) : (s.noteIssue t).clusters = s.clusters := rfl
@[simp] theorem State.noteIssue_slices (s : State) (t : Tid) : (s.noteIssue t).slices = s.slices := rfl
@[simp] theorem State.noteIssue_rx (s : State) (t : Tid) : (s.noteIssue t).rx = s.rx := rfl
@[simp] theorem State.noteIssue_dir (s : State) (t : Tid) : (s.noteIssue t).dir = s.dir := rfl
@[simp] theorem State.noteIssue_dirNext (s : State) (t : Tid) : (s.noteIssue t).dirNext = s.dirNext := rfl
@[simp] theorem State.noteIssue_wings (s : State) (t : Tid) : (s.noteIssue t).wings = s.wings := rfl
@[simp] theorem State.noteIssue_pools (s : State) (t : Tid) : (s.noteIssue t).pools = s.pools := rfl
@[simp] theorem State.noteIssue_freeChk (s : State) (t : Tid) : (s.noteIssue t).freeChk = s.freeChk := rfl
@[simp] theorem State.noteIssue_gddr (s : State) (t : Tid) : (s.noteIssue t).gddr = s.gddr := rfl
@[simp] theorem State.noteIssue_core (s : State) (t : Tid) : (s.noteIssue t).core = s.core := rfl
@[simp] theorem State.noteIssue_tm (s : State) (t : Tid) : (s.noteIssue t).tm = s.tm := rfl
@[simp] theorem State.noteIssue_ports (s : State) (t : Tid) : (s.noteIssue t).ports = s.ports := rfl
@[simp] theorem State.noteIssue_eyes (s : State) (t : Tid) : (s.noteIssue t).eyes = s.eyes := rfl
@[simp] theorem State.noteIssue_rclkA (s : State) (t : Tid) : (s.noteIssue t).rclkA = s.rclkA := rfl
@[simp] theorem State.noteIssue_rclkB (s : State) (t : Tid) : (s.noteIssue t).rclkB = s.rclkB := rfl
@[simp] theorem State.noteIssue_fabric (s : State) (t : Tid) : (s.noteIssue t).fabric = s.fabric := rfl
@[simp] theorem State.noteIssue_cipher (s : State) (t : Tid) : (s.noteIssue t).cipher = s.cipher := rfl
@[simp] theorem State.noteIssue_time (s : State) (t : Tid) : (s.noteIssue t).time = s.time := rfl
@[simp] theorem State.noteIssue_dcp (s : State) (t : Tid) : (s.noteIssue t).dcp = s.dcp := rfl
@[simp] theorem State.noteIssue_ctrs (s : State) (t : Tid) : (s.noteIssue t).ctrs = s.ctrs := rfl
@[simp] theorem State.noteIssue_vigil (s : State) (t : Tid) : (s.noteIssue t).vigil = s.vigil := rfl
@[simp] theorem State.noteIssue_out (s : State) (t : Tid) : (s.noteIssue t).out = s.out := rfl
@[simp] theorem State.noteIssue_nextId (s : State) (t : Tid) : (s.noteIssue t).nextId = s.nextId := rfl
@[simp] theorem State.noteIssue_retired (s : State) (t : Tid) : (s.noteIssue t).retired = s.retired := rfl
@[simp] theorem State.noteIssue_free (s : State) (t : Tid) : (s.noteIssue t).free = s.free := rfl
@[simp] theorem State.noteIssue_pending (s : State) (t : Tid) : (s.noteIssue t).pending = s.pending := rfl

@[simp] theorem State.setResidue_regs (s : State) (l : List Copy) : (s.setResidue l).regs = s.regs := rfl
@[simp] theorem State.setResidue_dp (s : State) (l : List Copy) : (s.setResidue l).dp = s.dp := rfl
@[simp] theorem State.setResidue_wideHeld (s : State) (l : List Copy) : (s.setResidue l).wideHeld = s.wideHeld := rfl
@[simp] theorem State.setResidue_mem (s : State) (l : List Copy) : (s.setResidue l).mem = s.mem := rfl
@[simp] theorem State.setResidue_boot (s : State) (l : List Copy) : (s.setResidue l).boot = s.boot := rfl
@[simp] theorem State.setResidue_power (s : State) (l : List Copy) : (s.setResidue l).power = s.power := rfl
@[simp] theorem State.setResidue_alm (s : State) (l : List Copy) : (s.setResidue l).alm = s.alm := rfl
@[simp] theorem State.setResidue_threads (s : State) (l : List Copy) : (s.setResidue l).threads = s.threads := rfl
@[simp] theorem State.setResidue_halted (s : State) (l : List Copy) : (s.setResidue l).halted = s.halted := rfl
@[simp] theorem State.setResidue_issuer (s : State) (l : List Copy) : (s.setResidue l).issuer = s.issuer := rfl
@[simp] theorem State.setResidue_spareIn (s : State) (l : List Copy) : (s.setResidue l).spareIn = s.spareIn := rfl
@[simp] theorem State.setResidue_clusters (s : State) (l : List Copy) : (s.setResidue l).clusters = s.clusters := rfl
@[simp] theorem State.setResidue_slices (s : State) (l : List Copy) : (s.setResidue l).slices = s.slices := rfl
@[simp] theorem State.setResidue_rx (s : State) (l : List Copy) : (s.setResidue l).rx = s.rx := rfl
@[simp] theorem State.setResidue_dir (s : State) (l : List Copy) : (s.setResidue l).dir = s.dir := rfl
@[simp] theorem State.setResidue_dirNext (s : State) (l : List Copy) : (s.setResidue l).dirNext = s.dirNext := rfl
@[simp] theorem State.setResidue_wings (s : State) (l : List Copy) : (s.setResidue l).wings = s.wings := rfl
@[simp] theorem State.setResidue_pools (s : State) (l : List Copy) : (s.setResidue l).pools = s.pools := rfl
@[simp] theorem State.setResidue_freeChk (s : State) (l : List Copy) : (s.setResidue l).freeChk = s.freeChk := rfl
@[simp] theorem State.setResidue_gddr (s : State) (l : List Copy) : (s.setResidue l).gddr = s.gddr := rfl
@[simp] theorem State.setResidue_core (s : State) (l : List Copy) : (s.setResidue l).core = s.core := rfl
@[simp] theorem State.setResidue_ports (s : State) (l : List Copy) : (s.setResidue l).ports = s.ports := rfl
@[simp] theorem State.setResidue_eyes (s : State) (l : List Copy) : (s.setResidue l).eyes = s.eyes := rfl
@[simp] theorem State.setResidue_rclkA (s : State) (l : List Copy) : (s.setResidue l).rclkA = s.rclkA := rfl
@[simp] theorem State.setResidue_rclkB (s : State) (l : List Copy) : (s.setResidue l).rclkB = s.rclkB := rfl
@[simp] theorem State.setResidue_fabric (s : State) (l : List Copy) : (s.setResidue l).fabric = s.fabric := rfl
@[simp] theorem State.setResidue_cipher (s : State) (l : List Copy) : (s.setResidue l).cipher = s.cipher := rfl
@[simp] theorem State.setResidue_time (s : State) (l : List Copy) : (s.setResidue l).time = s.time := rfl
@[simp] theorem State.setResidue_dcp (s : State) (l : List Copy) : (s.setResidue l).dcp = s.dcp := rfl
@[simp] theorem State.setResidue_ctrs (s : State) (l : List Copy) : (s.setResidue l).ctrs = s.ctrs := rfl
@[simp] theorem State.setResidue_vigil (s : State) (l : List Copy) : (s.setResidue l).vigil = s.vigil := rfl
@[simp] theorem State.setResidue_out (s : State) (l : List Copy) : (s.setResidue l).out = s.out := rfl
@[simp] theorem State.setResidue_nextId (s : State) (l : List Copy) : (s.setResidue l).nextId = s.nextId := rfl
@[simp] theorem State.setResidue_retired (s : State) (l : List Copy) : (s.setResidue l).retired = s.retired := rfl
@[simp] theorem State.setResidue_free (s : State) (l : List Copy) : (s.setResidue l).free = s.free := rfl
@[simp] theorem State.setResidue_pending (s : State) (l : List Copy) : (s.setResidue l).pending = s.pending := rfl

@[simp] theorem State.noticeAt_dp (s : State) (type : Nat) (ns : Word32) (body : List Byte) : (s.noticeAt type ns body).dp = s.dp := by
  unfold State.noticeAt; dsimp only; split <;> rfl
@[simp] theorem State.noticeAt_wideHeld (s : State) (type : Nat) (ns : Word32) (body : List Byte) : (s.noticeAt type ns body).wideHeld = s.wideHeld := by
  unfold State.noticeAt; dsimp only; split <;> rfl
@[simp] theorem State.noticeAt_mem (s : State) (type : Nat) (ns : Word32) (body : List Byte) : (s.noticeAt type ns body).mem = s.mem := by
  unfold State.noticeAt; dsimp only; split <;> rfl
@[simp] theorem State.noticeAt_boot (s : State) (type : Nat) (ns : Word32) (body : List Byte) : (s.noticeAt type ns body).boot = s.boot := by
  unfold State.noticeAt; dsimp only; split <;> rfl
@[simp] theorem State.noticeAt_power (s : State) (type : Nat) (ns : Word32) (body : List Byte) : (s.noticeAt type ns body).power = s.power := by
  unfold State.noticeAt; dsimp only; split <;> rfl
@[simp] theorem State.noticeAt_alm (s : State) (type : Nat) (ns : Word32) (body : List Byte) : (s.noticeAt type ns body).alm = s.alm := by
  unfold State.noticeAt; dsimp only; split <;> rfl
@[simp] theorem State.noticeAt_threads (s : State) (type : Nat) (ns : Word32) (body : List Byte) : (s.noticeAt type ns body).threads = s.threads := by
  unfold State.noticeAt; dsimp only; split <;> rfl
@[simp] theorem State.noticeAt_halted (s : State) (type : Nat) (ns : Word32) (body : List Byte) : (s.noticeAt type ns body).halted = s.halted := by
  unfold State.noticeAt; dsimp only; split <;> rfl
@[simp] theorem State.noticeAt_issuer (s : State) (type : Nat) (ns : Word32) (body : List Byte) : (s.noticeAt type ns body).issuer = s.issuer := by
  unfold State.noticeAt; dsimp only; split <;> rfl
@[simp] theorem State.noticeAt_spareIn (s : State) (type : Nat) (ns : Word32) (body : List Byte) : (s.noticeAt type ns body).spareIn = s.spareIn := by
  unfold State.noticeAt; dsimp only; split <;> rfl
@[simp] theorem State.noticeAt_clusters (s : State) (type : Nat) (ns : Word32) (body : List Byte) : (s.noticeAt type ns body).clusters = s.clusters := by
  unfold State.noticeAt; dsimp only; split <;> rfl
@[simp] theorem State.noticeAt_slices (s : State) (type : Nat) (ns : Word32) (body : List Byte) : (s.noticeAt type ns body).slices = s.slices := by
  unfold State.noticeAt; dsimp only; split <;> rfl
@[simp] theorem State.noticeAt_rx (s : State) (type : Nat) (ns : Word32) (body : List Byte) : (s.noticeAt type ns body).rx = s.rx := by
  unfold State.noticeAt; dsimp only; split <;> rfl
@[simp] theorem State.noticeAt_dir (s : State) (type : Nat) (ns : Word32) (body : List Byte) : (s.noticeAt type ns body).dir = s.dir := by
  unfold State.noticeAt; dsimp only; split <;> rfl
@[simp] theorem State.noticeAt_dirNext (s : State) (type : Nat) (ns : Word32) (body : List Byte) : (s.noticeAt type ns body).dirNext = s.dirNext := by
  unfold State.noticeAt; dsimp only; split <;> rfl
@[simp] theorem State.noticeAt_wings (s : State) (type : Nat) (ns : Word32) (body : List Byte) : (s.noticeAt type ns body).wings = s.wings := by
  unfold State.noticeAt; dsimp only; split <;> rfl
@[simp] theorem State.noticeAt_pools (s : State) (type : Nat) (ns : Word32) (body : List Byte) : (s.noticeAt type ns body).pools = s.pools := by
  unfold State.noticeAt; dsimp only; split <;> rfl
@[simp] theorem State.noticeAt_freeChk (s : State) (type : Nat) (ns : Word32) (body : List Byte) : (s.noticeAt type ns body).freeChk = s.freeChk := by
  unfold State.noticeAt; dsimp only; split <;> rfl
@[simp] theorem State.noticeAt_gddr (s : State) (type : Nat) (ns : Word32) (body : List Byte) : (s.noticeAt type ns body).gddr = s.gddr := by
  unfold State.noticeAt; dsimp only; split <;> rfl
@[simp] theorem State.noticeAt_core (s : State) (type : Nat) (ns : Word32) (body : List Byte) : (s.noticeAt type ns body).core = s.core := by
  unfold State.noticeAt; dsimp only; split <;> rfl
@[simp] theorem State.noticeAt_tm (s : State) (type : Nat) (ns : Word32) (body : List Byte) : (s.noticeAt type ns body).tm = s.tm := by
  unfold State.noticeAt; dsimp only; split <;> rfl
@[simp] theorem State.noticeAt_ports (s : State) (type : Nat) (ns : Word32) (body : List Byte) : (s.noticeAt type ns body).ports = s.ports := by
  unfold State.noticeAt; dsimp only; split <;> rfl
@[simp] theorem State.noticeAt_eyes (s : State) (type : Nat) (ns : Word32) (body : List Byte) : (s.noticeAt type ns body).eyes = s.eyes := by
  unfold State.noticeAt; dsimp only; split <;> rfl
@[simp] theorem State.noticeAt_rclkA (s : State) (type : Nat) (ns : Word32) (body : List Byte) : (s.noticeAt type ns body).rclkA = s.rclkA := by
  unfold State.noticeAt; dsimp only; split <;> rfl
@[simp] theorem State.noticeAt_rclkB (s : State) (type : Nat) (ns : Word32) (body : List Byte) : (s.noticeAt type ns body).rclkB = s.rclkB := by
  unfold State.noticeAt; dsimp only; split <;> rfl
@[simp] theorem State.noticeAt_fabric (s : State) (type : Nat) (ns : Word32) (body : List Byte) : (s.noticeAt type ns body).fabric = s.fabric := by
  unfold State.noticeAt; dsimp only; split <;> rfl
@[simp] theorem State.noticeAt_cipher (s : State) (type : Nat) (ns : Word32) (body : List Byte) : (s.noticeAt type ns body).cipher = s.cipher := by
  unfold State.noticeAt; dsimp only; split <;> rfl
@[simp] theorem State.noticeAt_time (s : State) (type : Nat) (ns : Word32) (body : List Byte) : (s.noticeAt type ns body).time = s.time := by
  unfold State.noticeAt; dsimp only; split <;> rfl
@[simp] theorem State.noticeAt_ctrs (s : State) (type : Nat) (ns : Word32) (body : List Byte) : (s.noticeAt type ns body).ctrs = s.ctrs := by
  unfold State.noticeAt; dsimp only; split <;> rfl
@[simp] theorem State.noticeAt_vigil (s : State) (type : Nat) (ns : Word32) (body : List Byte) : (s.noticeAt type ns body).vigil = s.vigil := by
  unfold State.noticeAt; dsimp only; split <;> rfl
@[simp] theorem State.noticeAt_out (s : State) (type : Nat) (ns : Word32) (body : List Byte) : (s.noticeAt type ns body).out = s.out := by
  unfold State.noticeAt; dsimp only; split <;> rfl
@[simp] theorem State.noticeAt_nextId (s : State) (type : Nat) (ns : Word32) (body : List Byte) : (s.noticeAt type ns body).nextId = s.nextId := by
  unfold State.noticeAt; dsimp only; split <;> rfl
@[simp] theorem State.noticeAt_retired (s : State) (type : Nat) (ns : Word32) (body : List Byte) : (s.noticeAt type ns body).retired = s.retired := by
  unfold State.noticeAt; dsimp only; split <;> rfl
@[simp] theorem State.noticeAt_free (s : State) (type : Nat) (ns : Word32) (body : List Byte) : (s.noticeAt type ns body).free = s.free := by
  unfold State.noticeAt; dsimp only; split <;> rfl
@[simp] theorem State.noticeAt_pending (s : State) (type : Nat) (ns : Word32) (body : List Byte) : (s.noticeAt type ns body).pending = s.pending := by
  unfold State.noticeAt; dsimp only; split <;> rfl

@[simp] theorem State.notice_dp (s : State) (type : Nat) (body : List Byte) : (s.notice type body).dp = s.dp := by simp [State.notice]
@[simp] theorem State.notice_wideHeld (s : State) (type : Nat) (body : List Byte) : (s.notice type body).wideHeld = s.wideHeld := by simp [State.notice]
@[simp] theorem State.notice_mem (s : State) (type : Nat) (body : List Byte) : (s.notice type body).mem = s.mem := by simp [State.notice]
@[simp] theorem State.notice_boot (s : State) (type : Nat) (body : List Byte) : (s.notice type body).boot = s.boot := by simp [State.notice]
@[simp] theorem State.notice_power (s : State) (type : Nat) (body : List Byte) : (s.notice type body).power = s.power := by simp [State.notice]
@[simp] theorem State.notice_alm (s : State) (type : Nat) (body : List Byte) : (s.notice type body).alm = s.alm := by simp [State.notice]
@[simp] theorem State.notice_threads (s : State) (type : Nat) (body : List Byte) : (s.notice type body).threads = s.threads := by simp [State.notice]
@[simp] theorem State.notice_halted (s : State) (type : Nat) (body : List Byte) : (s.notice type body).halted = s.halted := by simp [State.notice]
@[simp] theorem State.notice_issuer (s : State) (type : Nat) (body : List Byte) : (s.notice type body).issuer = s.issuer := by simp [State.notice]
@[simp] theorem State.notice_spareIn (s : State) (type : Nat) (body : List Byte) : (s.notice type body).spareIn = s.spareIn := by simp [State.notice]
@[simp] theorem State.notice_clusters (s : State) (type : Nat) (body : List Byte) : (s.notice type body).clusters = s.clusters := by simp [State.notice]
@[simp] theorem State.notice_slices (s : State) (type : Nat) (body : List Byte) : (s.notice type body).slices = s.slices := by simp [State.notice]
@[simp] theorem State.notice_rx (s : State) (type : Nat) (body : List Byte) : (s.notice type body).rx = s.rx := by simp [State.notice]
@[simp] theorem State.notice_dir (s : State) (type : Nat) (body : List Byte) : (s.notice type body).dir = s.dir := by simp [State.notice]
@[simp] theorem State.notice_dirNext (s : State) (type : Nat) (body : List Byte) : (s.notice type body).dirNext = s.dirNext := by simp [State.notice]
@[simp] theorem State.notice_wings (s : State) (type : Nat) (body : List Byte) : (s.notice type body).wings = s.wings := by simp [State.notice]
@[simp] theorem State.notice_pools (s : State) (type : Nat) (body : List Byte) : (s.notice type body).pools = s.pools := by simp [State.notice]
@[simp] theorem State.notice_freeChk (s : State) (type : Nat) (body : List Byte) : (s.notice type body).freeChk = s.freeChk := by simp [State.notice]
@[simp] theorem State.notice_gddr (s : State) (type : Nat) (body : List Byte) : (s.notice type body).gddr = s.gddr := by simp [State.notice]
@[simp] theorem State.notice_core (s : State) (type : Nat) (body : List Byte) : (s.notice type body).core = s.core := by simp [State.notice]
@[simp] theorem State.notice_tm (s : State) (type : Nat) (body : List Byte) : (s.notice type body).tm = s.tm := by simp [State.notice]
@[simp] theorem State.notice_ports (s : State) (type : Nat) (body : List Byte) : (s.notice type body).ports = s.ports := by simp [State.notice]
@[simp] theorem State.notice_eyes (s : State) (type : Nat) (body : List Byte) : (s.notice type body).eyes = s.eyes := by simp [State.notice]
@[simp] theorem State.notice_rclkA (s : State) (type : Nat) (body : List Byte) : (s.notice type body).rclkA = s.rclkA := by simp [State.notice]
@[simp] theorem State.notice_rclkB (s : State) (type : Nat) (body : List Byte) : (s.notice type body).rclkB = s.rclkB := by simp [State.notice]
@[simp] theorem State.notice_fabric (s : State) (type : Nat) (body : List Byte) : (s.notice type body).fabric = s.fabric := by simp [State.notice]
@[simp] theorem State.notice_cipher (s : State) (type : Nat) (body : List Byte) : (s.notice type body).cipher = s.cipher := by simp [State.notice]
@[simp] theorem State.notice_time (s : State) (type : Nat) (body : List Byte) : (s.notice type body).time = s.time := by simp [State.notice]
@[simp] theorem State.notice_ctrs (s : State) (type : Nat) (body : List Byte) : (s.notice type body).ctrs = s.ctrs := by simp [State.notice]
@[simp] theorem State.notice_vigil (s : State) (type : Nat) (body : List Byte) : (s.notice type body).vigil = s.vigil := by simp [State.notice]
@[simp] theorem State.notice_out (s : State) (type : Nat) (body : List Byte) : (s.notice type body).out = s.out := by simp [State.notice]
@[simp] theorem State.notice_nextId (s : State) (type : Nat) (body : List Byte) : (s.notice type body).nextId = s.nextId := by simp [State.notice]
@[simp] theorem State.notice_retired (s : State) (type : Nat) (body : List Byte) : (s.notice type body).retired = s.retired := by simp [State.notice]
@[simp] theorem State.notice_pending (s : State) (type : Nat) (body : List Byte) : (s.notice type body).pending = s.pending := by simp [State.notice]

/-! ### What is read back -/

@[simp] theorem State.reg_setReg_same (s : State) (ca : Nat) (v : Word32) : (s.setReg ca v).reg ca = v :=
  SMap.find_set_same _ _ _ _

theorem State.reg_setReg_ne (s : State) {ca x : Nat} (v : Word32) (h : x ≠ ca) : (s.setReg ca v).reg x = s.reg x :=
  SMap.find_set_ne' _ _ _ _ h

theorem State.reg_setReg (s : State) (ca x : Nat) (v : Word32) :
    (s.setReg ca v).reg x = if x = ca then v else s.reg x := by
  split
  · subst_vars; simp
  · exact s.reg_setReg_ne v ‹_›

@[simp] theorem State.reg_setRegNow_same (s : State) (ca : Nat) (v : Word32) : (s.setRegNow ca v).reg ca = v :=
  SMap.find_set_same _ _ _ _

theorem State.reg_setRegNow_ne (s : State) {ca x : Nat} (v : Word32) (h : x ≠ ca) :
    (s.setRegNow ca v).reg x = s.reg x := SMap.find_set_ne' _ _ _ _ h

@[simp] theorem State.cfg_setRegNow_same (s : State) (ca : Nat) (v : Word32) : (s.setRegNow ca v).cfg ca = v :=
  SMap.find_set_same _ _ _ _

theorem State.cfg_setRegNow_ne (s : State) {ca x : Nat} (v : Word32) (h : x ≠ ca) :
    (s.setRegNow ca v).cfg x = s.cfg x := SMap.find_set_ne' _ _ _ _ h

@[simp] theorem State.cfg_setReg (s : State) (ca x : Nat) (v : Word32) : (s.setReg ca v).cfg x = s.cfg x := rfl

/-- An event sets its bit and changes no other register. -/
theorem State.reg_setEv (s : State) (ca n x : Nat) :
    (s.setEv ca n).reg x = if x = ca then setBits (s.reg ca) n n 1 else s.reg x := s.reg_setReg ca x _

@[simp] theorem State.cfg_setEv (s : State) (ca n x : Nat) : (s.setEv ca n).cfg x = s.cfg x := rfl

/-- A counter register grows by n, saturating at its top, and no other register changes. -/
theorem State.reg_bump (s : State) (ca n x : Nat) :
    (s.bump ca n).reg x =
      if x = ca then BitVec.ofNat 32 (Nat.min ((s.reg ca).toNat + n) 0xFFFFFFFF) else s.reg x := s.reg_setReg ca x _

@[simp] theorem State.cfg_bump (s : State) (ca n x : Nat) : (s.bump ca n).cfg x = s.cfg x := rfl

/-- The device clears a bit in one register and changes no other. -/
theorem State.reg_clrBit (s : State) (ca n x : Nat) :
    (s.clrBit ca n).reg x = if x = ca then setBits (s.reg ca) n n 0 else s.reg x := s.reg_setReg ca x _

/-- The data plane sees the bit cleared too. -/
theorem State.cfg_clrBit (s : State) (ca n x : Nat) :
    (s.clrBit ca n).cfg x = if x = ca then setBits (s.cfg ca) n n 0 else s.cfg x := by
  split
  · subst_vars; exact SMap.find_set_same _ _ _ _
  · exact SMap.find_set_ne' _ _ _ _ ‹_›

@[simp] theorem State.thread_setThread_same (s : State) (t : Tid) (th : Thread) : (s.setThread t th).thread t = th :=
  SMap.find_set_same _ _ _ _

@[simp] theorem State.threadN_setThreadN_same (s : State) (i : Nat) (th : Thread) : (s.setThreadN i th).threadN i = th :=
  SMap.find_set_same _ _ _ _

theorem State.threadN_setThreadN_ne (s : State) {i j : Nat} (th : Thread) (h : j ≠ i) :
    (s.setThreadN i th).threadN j = s.threadN j := SMap.find_set_ne _ _ _ h

theorem State.threadN_setThread_ne (s : State) {t : Tid} {j : Nat} (th : Thread) (h : j ≠ tidIdx t) :
    (s.setThread t th).threadN j = s.threadN j := SMap.find_set_ne _ _ _ h

@[simp] theorem State.thread_eq_threadN (s : State) (t : Tid) : s.threadN (tidIdx t) = s.thread t := rfl

/-- Two threads of the part have two numbers. -/
theorem tidIdx_injective {a b : Tid} (h : tidIdx a = tidIdx b) : a = b := by
  obtain ⟨⟨a1, _⟩, ⟨a2, _⟩, ⟨a3, _⟩⟩ := a
  obtain ⟨⟨b1, _⟩, ⟨b2, _⟩, ⟨b3, _⟩⟩ := b
  simp only [tidIdx] at h
  simp only [Tid.mk.injEq, Fin.mk.injEq]
  omega

theorem State.thread_setThread_ne (s : State) {t u : Tid} (th : Thread) (h : u ≠ t) :
    (s.setThread t th).thread u = s.thread u := SMap.find_set_ne _ _ _ (fun e => h (tidIdx_injective e))

@[simp] theorem State.cluster_setCluster_same (s : State) (k : Nat) (c : Cluster) : (s.setCluster k c).cluster k = c :=
  SMap.find_set_same _ _ _ _

theorem State.cluster_setCluster_ne (s : State) {k j : Nat} (c : Cluster) (h : j ≠ k) :
    (s.setCluster k c).cluster j = s.cluster j := SMap.find_set_ne _ _ _ h

@[simp] theorem State.slice_setSlice_same (s : State) (i : Nat) (x : Slice) : (s.setSlice i x).slice i = x.note :=
  SMap.find_set_same _ _ _ _

theorem State.slice_setSlice_ne (s : State) {i j : Nat} (x : Slice) (h : j ≠ i) :
    (s.setSlice i x).slice j = s.slice j := SMap.find_set_ne _ _ _ h

@[simp] theorem State.wing_setWing_same (s : State) (w : Nat) (x : Wing) : (s.setWing w x).wing w = x :=
  SMap.find_set_same _ _ _ _

theorem State.wing_setWing_ne (s : State) {w j : Nat} (x : Wing) (h : j ≠ w) : (s.setWing w x).wing j = s.wing j :=
  SMap.find_set_ne _ _ _ h

@[simp] theorem State.port_setPort_same (s : State) (p : Nat) (x : Port) : (s.setPort p x).port p = x :=
  SMap.find_set_same _ _ _ _

theorem State.port_setPort_ne (s : State) {p j : Nat} (x : Port) (h : j ≠ p) : (s.setPort p x).port j = s.port j :=
  SMap.find_set_ne _ _ _ h

@[simp] theorem State.queue_setQueue_same (s : State) (q : Nat) (x : Queue) : (s.setQueue q x).queue q = x.note :=
  SMap.find_set_same _ _ _ _

theorem State.queue_setQueue_ne (s : State) {q j : Nat} (x : Queue) (h : j ≠ q) :
    (s.setQueue q x).queue j = s.queue j := SMap.find_set_ne _ _ _ h

/-- A device counter after an addition (R354). -/
theorem State.ctr_addCtr (s : State) (n v x : Nat) :
    SMap.find 0 (s.addCtr n v).ctrs.ctr x =
      if x = n then SMap.find 0 s.ctrs.ctr n + BitVec.ofNat 64 v else SMap.find 0 s.ctrs.ctr x :=
  SMap.find_set _ _ _ _ _

/-- A stored register depends on the stored registers only. -/
theorem State.reg_congr {s t : State} (h : t.regs = s.regs) (ca : Nat) : t.reg ca = s.reg ca := by
  simp [State.reg, h]

/-- What the data plane sees depends on its own view only. -/
theorem State.cfg_congr {s t : State} (h : t.dp = s.dp) (ca : Nat) : t.cfg ca = s.cfg ca := by
  simp [State.cfg, h]

end Sys2Proof.Machine
end

