-- ==== Sys2Proof/Laws/Words.lean ====
section
/-! SUPPORT. Laws of the issue of a Dinum word (R61, R69, R103, R106): the effect that each nanoword has where it acts, and the
one form of exec on every one of the 56 words. -/

namespace Sys2Proof.Machine

/-- The effect of a word on its state and its thread, the program counter already moved on. -/
def wordEffect (i : Instr) (s : State) (th : Thread) : State × Thread :=
  match i with
  | .add _ _ a b c => (s, (aluAdd a b c) th)
  | .sub _ _ a b c => (s, (aluSub a b c) th)
  | .and _ _ a b c => (s, (aluLogic (· &&& ·) a b c) th)
  | .or _ _ a b c => (s, (aluLogic (· ||| ·) a b c) th)
  | .xor _ _ a b c => (s, (aluLogic (· ^^^ ·) a b c) th)
  | .shl _ _ a b c => (s, (aluShl a b c) th)
  | .shr _ _ a b c => (s, (aluShr a b c) th)
  | .rot _ _ a b c => (s, (aluRot a b c) th)
  | .min _ _ a b c => (s, (aluMin a b c) th)
  | .max _ _ a b c => (s, (aluMax a b c) th)
  | .cmp _ _ b c => (s, (aluCmp b c) th)
  | .mov _ _ a b => (s, (aluMov a b) th)
  | .sel _ p a b c => (s, (aluSel p a b c) th)
  | .bfx _ _ a b c => (s, (aluBfx a b c) th)
  | .bfi _ _ a b c => (s, (aluBfi a b c) th)
  | .popc _ _ a b => (s, (aluPopc a b) th)
  | .clz _ _ a b => (s, (aluClz a b) th)
  | .hash _ _ a n c => (s, (aluHash a n c) th)
  | .csum _ _ a b c => (s, (aluCsum a b c) th)
  | .csumi _ _ a b c => (s, (aluCsumi a b c) th)
  | .ldh _ _ a b c => (s, (hdrLdh a b c) th)
  | .sth _ _ a b c => (s, (hdrSth a b c) th)
  | .insh _ _ a b => (s, (hdrInsh a b) th)
  | .delh _ _ a b => (s, (hdrDelh a b) th)
  | .align _ _ a => (s, (hdrAlign a) th)
  | .lkx t _ i b tbl => lookupWord t .exact i b tbl s th
  | .lkp t _ i b tbl => lookupWord t .lpm i b tbl s th
  | .lkt t _ i b tbl => lookupWord t .tern i b tbl s th
  | .lkw _ _ mask => (s, (lkwWait mask) th)
  | .upd t _ i b => updWord t i b s th
  | .learn t _ tbl b c => learnWord t tbl b c s th
  | .post t _ tbl b n => postWord t tbl b n s th
  | .br t d => jump t d s th
  | .brc t p d => jumpIf t p d s th
  | .loop t p count body => enterLoop t p count body s th
  | .exit _ _ => retireWith .exit s th
  | .abort t _ => abortWord t s th
  | .fwd _ _ => retireWith .fwd s th
  | .drop _ _ => retireWith .drop s th
  | .repl _ _ => retireWith .repl s th
  | .punt _ _ a => puntWord a s th
  | .recirc _ _ => retireWith .recirc s th
  | .mirror _ _ a => (s, th.append (.mirror ((readOp th a).toNat % 32)))
  | .slipDest _ _ a b => (s, (slipDestTo a b) th)
  | .slipClass _ _ a b => (s, (slipClassTo a b) th)
  | .slipEgr _ _ a b => (s, (slipEgrTo a b) th)
  | .cnt t _ a b => (s, (cntWord t a b) th)
  | .meter t _ a b c => meterWordRun t a b c s th
  | .cread _ _ a b => creadWord a b s th
  | .tstamp _ _ a dt => tstampWord a dt s th
  | .qdepth _ _ a b => qdepthWord a b s th
  | .ioam _ _ a b c => ioamWord a b c s th
  | .sasel _ _ a => (s, (saselTo a) th)
  | .balloc t _ a b => ballocWord t a b s th
  | .bfree _ _ a => (s, (bfreeWord a) th)
  | .nop _ _ => (s, th)
  | _ => (s, th)

/-- Every word is issued in one way, and only its effect is its own. -/
theorem exec_word {i : Instr} {t : Tid} {w : DWord} (h : i.dword = some (t, w)) (s : State) :
    exec i s = runWord t w s (wordEffect i) := by
  cases i <;> simp only [Instr.dword, Option.some.injEq, Prod.mk.injEq, reduceCtorEq] at h <;>
    (obtain ⟨rfl, rfl⟩ := h; rfl)

/-- A word that no store can hold is refused (R106, R113). -/
theorem runWord_refused {t : Tid} {w : DWord} {s : State} {f : State → Thread → State × Thread} (h : w.ok = false) :
    runWord t w s f = .refused (.badWord w.nw.toNat) := by simp [runWord, State.issue, h]

/-- A thread that may not issue does nothing. -/
theorem runWord_idle {t : Tid} {w : DWord} {s : State} {f : State → Thread → State × Thread} (h : w.ok = true)
    (hi : s.canIssue t = false) : runWord t w s f = .next s := by simp [runWord, State.issue, h, hi]

/-- A word beyond the declared WCET is a machine check (R69). -/
theorem runWord_budget {t : Tid} {w : DWord} {s : State} {f : State → Thread → State × Thread} (h : w.ok = true)
    (hi : s.canIssue t = true) (hb : (s.thread t).wcet ≤ (s.thread t).issued) :
    runWord t w s f = .next (s.machineCheck t none) := by simp [runWord, State.issue, h, hi, hb]

/-- A word that fails its parity, or whose nanoword does, is a machine check and does not act (R97, R98). -/
theorem runWord_parity {t : Tid} {w : DWord} {s : State} {f : State → Thread → State × Thread} {key : Nat} (h : w.ok = true)
    (hi : s.canIssue t = true) (hb : (s.thread t).issued < (s.thread t).wcet) (hf : s.fetchBad t = some key) :
    runWord t w s f = .next (s.machineCheck t (some key)) := by
  have hb' : ¬ (s.thread t).wcet ≤ (s.thread t).issued := by omega
  simp [runWord, State.issue, h, hi, hb', hf]

/-- A word gated false issues and does nothing else (R106). -/
theorem runWord_skipped {t : Tid} {w : DWord} {s : State} {f : State → Thread → State × Thread} (h : w.ok = true)
    (hi : s.canIssue t = true) (hb : (s.thread t).issued < (s.thread t).wcet) (hf : s.fetchBad t = none)
    (hp : (ungated w.nw || predHolds (s.thread t) w.pred) = false) :
    runWord t w s f = .next ((s.noteIssue t).setThread t (s.thread t).stepped) := by
  have hb' : ¬ (s.thread t).wcet ≤ (s.thread t).issued := by omega
  simp [runWord, State.issue, h, hi, hb', hf, hp]

/-- A word that acts. -/
theorem runWord_taken {t : Tid} {w : DWord} {s : State} {f : State → Thread → State × Thread} (h : w.ok = true)
    (hi : s.canIssue t = true) (hb : (s.thread t).issued < (s.thread t).wcet) (hf : s.fetchBad t = none)
    (hp : (ungated w.nw || predHolds (s.thread t) w.pred) = true) :
    runWord t w s f =
      .next (((f s (s.thread t).stepped).1.noteIssue t).setThread t (f s (s.thread t).stepped).2) := by
  have hb' : ¬ (s.thread t).wcet ≤ (s.thread t).issued := by omega
  simp [runWord, State.issue, h, hi, hb', hf, hp]

/-- The issue of a word answers a next state, or is refused because no store can hold the word. -/
theorem runWord_stops (t : Tid) (w : DWord) (s : State) (f : State → Thread → State × Thread) :
    (∃ x, runWord t w s f = .next x) ∨ (w.ok = false ∧ runWord t w s f = .refused (.badWord w.nw.toNat)) := by
  by_cases h : w.ok = false
  · exact .inr ⟨h, runWord_refused h⟩
  · left
    unfold runWord
    split
    · simp_all [State.issue]; repeat' split at *
      all_goals simp_all
    all_goals exact ⟨_, rfl⟩

/-! ### What moving on changes -/


@[simp] theorem Thread.stepped_state (th : Thread) : th.stepped.state = th.state := by
  unfold Thread.stepped; repeat' split
  all_goals rfl
@[simp] theorem Thread.stepped_egress (th : Thread) : th.stepped.egress = th.egress := by
  unfold Thread.stepped; repeat' split
  all_goals rfl
@[simp] theorem Thread.stepped_g (th : Thread) : th.stepped.g = th.g := by
  unfold Thread.stepped; repeat' split
  all_goals rfl
@[simp] theorem Thread.stepped_t (th : Thread) : th.stepped.t = th.t := by
  unfold Thread.stepped; repeat' split
  all_goals rfl
@[simp] theorem Thread.stepped_z (th : Thread) : th.stepped.z = th.z := by
  unfold Thread.stepped; repeat' split
  all_goals rfl
@[simp] theorem Thread.stepped_c (th : Thread) : th.stepped.c = th.c := by
  unfold Thread.stepped; repeat' split
  all_goals rfl
@[simp] theorem Thread.stepped_n (th : Thread) : th.stepped.n = th.n := by
  unfold Thread.stepped; repeat' split
  all_goals rfl
@[simp] theorem Thread.stepped_v (th : Thread) : th.stepped.v = th.v := by
  unfold Thread.stepped; repeat' split
  all_goals rfl
@[simp] theorem Thread.stepped_l (th : Thread) : th.stepped.l = th.l := by
  unfold Thread.stepped; repeat' split
  all_goals rfl
@[simp] theorem Thread.stepped_win (th : Thread) : th.stepped.win = th.win := by
  unfold Thread.stepped; repeat' split
  all_goals rfl
@[simp] theorem Thread.stepped_tail (th : Thread) : th.stepped.tail = th.tail := by
  unfold Thread.stepped; repeat' split
  all_goals rfl
@[simp] theorem Thread.stepped_slip (th : Thread) : th.stepped.slip = th.slip := by
  unfold Thread.stepped; repeat' split
  all_goals rfl
@[simp] theorem Thread.stepped_wcet (th : Thread) : th.stepped.wcet = th.wcet := by
  unfold Thread.stepped; repeat' split
  all_goals rfl
@[simp] theorem Thread.stepped_waiting (th : Thread) : th.stepped.waiting = th.waiting := by
  unfold Thread.stepped; repeat' split
  all_goals rfl
@[simp] theorem Thread.stepped_buf (th : Thread) : th.stepped.buf = th.buf := by
  unfold Thread.stepped; repeat' split
  all_goals rfl
@[simp] theorem Thread.stepped_taken (th : Thread) : th.stepped.taken = th.taken := by
  unfold Thread.stepped; repeat' split
  all_goals rfl
@[simp] theorem Thread.stepped_looks (th : Thread) : th.stepped.looks = th.looks := by
  unfold Thread.stepped; repeat' split
  all_goals rfl
@[simp] theorem Thread.stepped_pkt (th : Thread) : th.stepped.pkt = th.pkt := by
  unfold Thread.stepped; repeat' split
  all_goals rfl
@[simp] theorem Thread.stepped_binding (th : Thread) : th.stepped.binding = th.binding := by
  unfold Thread.stepped; repeat' split
  all_goals rfl
@[simp] theorem Thread.stepped_bindEg (th : Thread) : th.stepped.bindEg = th.bindEg := by
  unfold Thread.stepped; repeat' split
  all_goals rfl
@[simp] theorem Thread.stepped_bindPc (th : Thread) : th.stepped.bindPc = th.bindPc := by
  unfold Thread.stepped; repeat' split
  all_goals rfl
@[simp] theorem Thread.stepped_bindW (th : Thread) : th.stepped.bindW = th.bindW := by
  unfold Thread.stepped; repeat' split
  all_goals rfl
@[simp] theorem Thread.stepped_order (th : Thread) : th.stepped.order = th.order := by
  unfold Thread.stepped; repeat' split
  all_goals rfl
@[simp] theorem Thread.stepped_issued (th : Thread) : th.stepped.issued = th.issued + 1 := by
  unfold Thread.stepped; repeat' split
  all_goals rfl

/-- An operand reads the same after the program counter has moved on. -/
@[simp] theorem readOp_stepped (th : Thread) (o : Operand) : readOp th.stepped o = readOp th o := by
  cases o
  case pred i => unfold readOp predBit; rw [Thread.stepped_t]
  all_goals simp [readOp, winGet, winByte, hdrOff, lookVal]

end Sys2Proof.Machine
end

