-- ==== Sys2Proof/Tests/Slice0.lean ====
section
/-! SUPPORT. Tests of the model: ill-formed commands that WellFormed refuses, words written out from the encoding tables of
the instruction chapter, results that the manual or a named algorithm states, and, for the statements that have hypotheses, a
state and operands that meet them. -/

namespace Sys2Proof.Tests

open Sys2Proof Sys2Proof.Machine Sys2Proof.Spec

-- One test after another: each waiting test would hold a thread and its stack.
set_option Elab.async false

/-! ### Small states -/

/-- The device in RUNNING, with every register at its reset value, and REFCLK in range. -/
def base : State :=
  { State.reset with boot := { Boot.reset with
      inReset := false
      phase := .running
      straps := 0x300
      nodesReady := true
      refGood := 4
      frefGood := 4 } }

/-- The same device in another phase. -/
def inPhase (p : Phase) : State := { base with boot := { base.boot with phase := p } }

/-- A register, as the host reads it and as the data plane sees it. -/
def withReg (s : State) (ca : Nat) (v : Word32) : State :=
  { s with
    regs := SMap.set (regDefault ca) s.regs ca v
    dp := SMap.set (regDefault ca) s.dp ca v }

/-- Registers. -/
def withRegs (s : State) (l : List (Nat × Word32)) : State := l.foldl (fun y x => withReg y x.1 x.2) s

/-- Thread 0 of logical Scribe 0 of cluster 0. -/
def t0 : Tid := ⟨0, 0, 0⟩

/-- A READY thread with ten cycles. -/
def ready : Thread := { Thread.idle with
  state := .ready
  wcet := 10
  pkt := none }

/-- The device with one thread. -/
def withThread (th : Thread) : State := { base with threads := [(0, th)] }

/-- A pool that is present and whose cache holds a buffer. -/
def withPool (s : State) (p kind : Nat) (l : List Nat) : State :=
  withRegs { s with pools := [(p, { Pool.reset with caches := [(0, l)] })] }
    [(Reg.circPoolCount p, 4096), (Reg.circPoolCfg p, BitVec.ofNat 32 kind)]

/-- A cluster that runs, with a Codex and an image of one entry of either kind. -/
def loaded : State :=
  { base with clusters := [(0, { Cluster.reset with
      state := .running
      codex := some ⟨0, 0, []⟩
      prog := some ⟨0, 0, 0, 0, 1, [⟨0, 3, 0, 10, 10⟩], [0]⟩ })] }

/-- A packet with nothing in it. -/
def pkt : Pkt := { Pkt.blank with
  bad := none
  ended := true }

/-- A device with port L000 of one lane in UP, its node and its queue 0 enabled, four cells in pool 0, and a parse state 0 that
accepts at once as class 0; pool 0 has no fallback. -/
def portUp : State :=
  withRegs
    { loaded with
      ports := [(0, { Port.reset with state := .up })]
      pools := [(0, { Pool.reset with caches := [(0, [4, 8, 12, 16])] })]
      alm := { base.alm with next := 8 }
      power := { base.power with
        k := 54
        nextK := 54 } }
    [(Reg.octMode 0, 0x00000300), (Reg.tmNode 0 0x78000 0 0, 0x80000000), (Reg.tmQueue 0 0 0, 0x80000000),
     (Reg.accState 0 0 0 0, 0x80000000), (Reg.circPoolCount 0, 4096), (Reg.circPoolCfg 0, 0xF0)]

/-- The same with cut-through. -/
def portCut : State := withReg portUp (Reg.accPortCfg 0 0) 0x80000000

/-- Both host ports in UP, session 3 open in version 3 and warden, and a packet for HP0 in its highest class, 7. -/
def hostUp : State :=
  { base with
    dcp := { Dcp.reset with
      hp0 := { HostPort.reset with state := .up }
      hp1 := { HostPort.reset with state := .up }
      sessions := [(3, { Session.closed with
        isOpen := true
        ver := 3 })]
      warden := some 3 }
    tm := { Tm.reset with hostQ := [(7, [pkt])] } }

/-- A header of session 3 from HP0, with the number that follows the last. -/
def hdr : OpHdr := { hp := 0, mac := 2, session := 3, seq := 1, version := 3, flags := 0, tag := 9, epoch := 0 }

/-- A device that such an operation finds, in a phase. -/
def hostIn (p : Phase) : State := { hostUp with boot := { base.boot with phase := p } }

/-- The operation is new, and the warden's. -/
theorem hdr_new (p : Phase) (h : 5 ≤ p.code ∧ p.code ≤ 9) : NewOp (hostIn p) hdr :=
  { phase := h, up := rfl, quiet := ⟨rfl, rfl⟩, ungated := rfl, isOpen := rfl, version := rfl, known := Or.inr rfl, newer := show 0 < ((1 : Word32) - 0).toNat ∧ ((1 : Word32) - 0).toNat < 2 ^ 31 by decide, room := Nat.zero_lt_succ 63,
    once := fun _ h => absurd h List.not_mem_nil }

theorem hdr_warden (p : Phase) (h : p ≠ .checking) : AsWarden (hostIn p) hdr := ⟨rfl, fun _ => rfl, h⟩

/-- Memory port 0 serves. -/
def mapped : State := withReg hostUp (Reg.gdStatus 0) 2

/-- A waiting operation alone. -/
def waitingFor (p : Phase) (what : Wait) (flags : BitVec 8) : State × Waiting :=
  let w : Waiting := ⟨{ hdr with flags := flags }, what, 1, true⟩
  ({ hostIn p with dcp := { hostUp.dcp with
      waiting := [w]
      sessions := [(3, { Session.closed with
        isOpen := true
        ver := 3
        prog := [⟨1, 0, 2⟩] })] } }, w)

theorem waiting_alone (p : Phase) (what : Wait) (flags : BitVec 8) : Alone (waitingFor p what flags).1 (waitingFor p what flags).2 :=
  { alone := by simp [waitingFor, hostUp, Dcp.reset]
    prog := by simp [waitingFor, State.session, SMap.find, hdr]
    up := by simp [waitingFor, State.portSt, State.hp, hdr, hostUp, HostPort.reset] }

/-- A packet of 60 bytes for queue 0 of L000, of one cell. -/
def frame60 : Pkt := { pkt with data := List.replicate 60 0 }

/-- That packet has arrived at the queues of slice 0. -/
def arriving : State := { portUp with slices := [(0, { Slice.reset with arrived := [frame60] })] }

/-- A queue with a QMAX of 16 cells that holds 16. -/
def fullQueue : State :=
  let s := withReg arriving (Reg.tmQueue 0 0 1) 1
  { s with tm := { s.tm with queues := [(0, { Queue.reset with head := 16 })] } }

/-- A packet of L000 whose end is still to come. -/
def part : Pkt := { Pkt.blank with
  id := 7
  data := List.replicate 256 0
  ended := false }

/-- The frame that it belongs to, with its packet waiting in the FIFO. -/
def partial' : State :=
  { portCut with
    rx := [(0, ⟨7, 256, none, none⟩)]
    slices := [(0, { Slice.reset with fifo := [part] })] }

/-- A copy without an upset keeps its parity. -/
theorem parity_clean (n : Nat) : parityBad n 0 = false := by simp [parityBad, bit, b2n]

/-- A READY thread of the running device may issue. -/
theorem ready_mayIssue (th : Thread) (h : th.state = .ready) (b : th.issued < th.wcet) : MayIssue (withThread th) t0 :=
  { ready := h
    runs := List.not_mem_nil
    present := List.not_mem_nil
    turn := by
      have e : (withThread th).threadN 0 = th := rfl
      have l : (List.range 8).map (fun j => (0 + j) % 8) = [0, 1, 2, 3, 4, 5, 6, 7] := by decide
      have n : (withThread th).nextThread 0 0 = ((List.range 8).map (fun j => (0 + j) % 8)).find?
          (fun j => ((withThread th).threadN (512 * 0 + 8 * 0 + j)).state == .ready) := rfl
      show (withThread th).nextThread 0 0 = some 0
      rw [n, l, List.find?_cons_of_pos]
      simp [e, h]
    budget := b
    sound := by
      have e : ∀ k, ((withThread th).cluster 0).mainFails k = false := fun k => parity_clean _
      simp [State.fetchBad, t0, e] }

/-- The same thread with one word. -/
theorem r0 : MayIssue (withThread ready) t0 := ready_mayIssue ready rfl (by decide)

/-! ### Well-formed commands -/

/-- R128: a LOOP count is at most 16. -/
theorem test_wf_loop_count : (Instr.loop t0 0 17 1).wf = false ∧ (Instr.loop t0 0 16 1).wf = true := by decide

/-- R17: the network ports are L000 to L511, and the host ports stand after them. -/
theorem test_wf_port :
    (Instr.frameReceive 512 [] ⟨.good, 0, 0, 0⟩ 0 0).wf = false ∧ (Instr.frameReceive 511 [] ⟨.good, 0, 0, 0⟩ 0 0).wf = true ∧
    (Instr.portEnable 514 true).wf = false ∧ (Instr.portEnable 513 true).wf = true := by decide

/-- R106 and R113: the destination of ADD is no immediate; R117: LDH reads 1 to 8 bytes. -/
theorem test_wf_word :
    (Instr.add t0 0 (.uimm 1) (.reg 1) (.reg 2)).wf = false ∧ (Instr.add t0 0 (.reg 0) (.reg 1) (.reg 2)).wf = true ∧
    (Instr.ldh t0 0 (.reg 0) (.reg 1) 9).wf = false ∧ (Instr.ldh t0 0 (.reg 0) (.reg 1) 8).wf = true := by decide

/-- R108: a displacement of 0 is reserved; R115: a Toeplitz length is at most 36; R132: IOAM takes a header operand of one byte. -/
theorem test_wf_reserved :
    (Instr.br t0 0).wf = false ∧ (Instr.br t0 0xFFF).wf = true ∧
    (Instr.hash t0 0 (.reg 0) 1 0x825).wf = false ∧ (Instr.hash t0 0 (.reg 0) 1 0x824).wf = true ∧
    (Instr.ioam t0 0 (.hdrAbs 4 1) (.reg 1) 0).wf = false ∧ (Instr.ioam t0 0 (.hdrAbs 4 0) (.reg 1) 1).wf = true := by decide

/-! ### Words of the instruction chapter (R103, R108) -/

/-- SUB G1, H1+8:2, #0x100: the worked example of section 3 of the chapter. -/
theorem test_decode_sub :
    decodeWord 0x0020000140A11100 = some ⟨0x002, 0, .reg 1, .hdrRel 1 8 1, .uimm 0x100⟩ := by decide

/-- BRC (C = 0) +17: the second worked example. -/
theorem test_decode_brc :
    decodeWord 0x301CF000F000A011 = some ⟨0x301, 0xC, .none, .none, .disp 17⟩ := by decide

/-- One word of each further family, written out from Tables 4.1 and 4.3: STH, LKX, LKW, POST, EXIT, SLIP.DEST, METER, TSTAMP,
SASEL, with a signed immediate, an absolute header operand, a call slip operand, a lookup half, a predicate and a table. -/
theorem test_decode_families :
    decodeWord 0x1010_2FFF_3107_1008 = some ⟨0x101, 0, .simm 0xFFF, .hdrAbs 0x10 7, .uimm 8⟩ ∧
    decodeWord 0x2001_6006_001F_90FF = some ⟨0x200, 1, .lookup 3 false, .reg 31, .table 255⟩ ∧
    decodeWord 0x2080_100F_F000_F000 = some ⟨0x208, 0, .uimm 15, .none, .none⟩ ∧
    decodeWord 0x2120_9007_7002_0003 = some ⟨0x212, 0, .table 7, .pred 2, .reg 3⟩ ∧
    decodeWord 0x3100_F000_F000_F000 = some ⟨0x310, 0, .none, .none, .none⟩ ∧
    decodeWord 0x4200_1001_5743_F000 = some ⟨0x420, 0, .uimm 1, .slip 0x74 3, .none⟩ ∧
    decodeWord 0x5010_0001_6003_F000 = some ⟨0x501, 0, .reg 1, .lookup 1 true, .none⟩ ∧
    decodeWord 0x600F_0002_F000_F000 = some ⟨0x600, 15, .reg 2, .none, .none⟩ ∧
    decodeWord 0x7000_0000_F000_F000 = some ⟨0x700, 0, .reg 0, .none, .none⟩ := by decide

/-- R108: a reserved type, a reserved bit and a displacement of 0 spell no word. -/
theorem test_decode_reserved :
    decodeWord 0x0020_0001_8000_1100 = none ∧ decodeWord 0x0020_0021_0000_1100 = none ∧
    decodeWord 0x301C_F000_F000_A000 = none := by decide

/-! ### Dinum words -/

/-- A command that is a word of a thread acts at a state: R106. -/
def actsB (i : Instr) (s : State) : Bool :=
  match i.dword with
  | some (t, w) => decide (t = t0) && w.ok && (decide (w.nw = 0x00D) || decide (w.nw = 0x301) || decide (w.nw = 0x302) ||
      predHolds (s.thread t) w.pred)
  | none => false

/-- The same as a statement's premise. -/
theorem actsB_acts (i : Instr) (s : State) (h : actsB i s = true) : ∃ w, Acts i t0 w s := by
  unfold actsB at h
  split at h
  · rename_i t w e
    simp only [Bool.and_eq_true, Bool.or_eq_true, decide_eq_true_eq] at h
    obtain ⟨⟨rfl, h2⟩, h3⟩ := h
    exact ⟨w, e, h2, by tauto⟩
  · simp at h

/-- One word of each nanoword, with operands at a boundary value where the table bounds them. -/
def words1 : List Instr := [
  .add t0 0 (.reg 0) (.reg 31) (.uimm 0xFFF), .sub t0 0 (.pred 3) (.simm 0xFFF) (.reg 1), .and t0 0 (.hdrAbs 255 7) (.reg 0) (.reg 0),
  .or t0 0 (.hdrRel 31 31 3) (.reg 0) (.reg 0), .xor t0 0 (.slip 127 7) (.reg 0) (.reg 0), .shl t0 0 (.reg 0) (.reg 0) (.uimm 64),
  .shr t0 0 (.reg 0) (.reg 0) (.uimm 63), .rot t0 0 (.reg 0) (.reg 0) (.uimm 0), .min t0 0 (.reg 0) (.lookup 3 true) (.reg 0),
  .max t0 0 (.reg 0) (.reg 0) (.reg 0), .cmp t0 0 (.reg 0) (.reg 0), .mov t0 0 (.reg 0) (.uimm 0), .sel t0 15 (.reg 0) (.reg 1) (.reg 2),
  .bfx t0 0 (.reg 0) (.reg 0) 0xFFF, .bfi t0 0 (.reg 0) (.reg 0) 0xFFF, .popc t0 0 (.reg 0) (.reg 0), .clz t0 0 (.reg 0) (.reg 0),
  .csum t0 0 (.reg 0) (.reg 0) (.uimm 256), .csumi t0 0 (.reg 0) (.reg 0) (.reg 0), .nop t0 0]

/-- Every word of Table 4.4 but HASH has a case that meets the premises of its statement. -/
theorem test_witness_arithmetic :
    (words1.all fun i => actsB i (withThread ready) && (table44 ((withThread ready).thread t0) i).isSome) = true ∧
    MayIssue (withThread ready) t0 := ⟨by decide, ready_mayIssue ready rfl (by decide)⟩

/-- The deferred words, the header words, the lookups, flow, fate, call slip and reading words. -/
def words2 : List Instr := [
  .cnt t0 0 (.uimm 0) .none, .mirror t0 0 (.uimm 31), .bfree t0 0 (.reg 0), .learn t0 0 255 (.reg 0) (.reg 1), .upd t0 0 3 (.reg 0),
  .post t0 0 0 (.reg 0) 31, .hash t0 0 (.reg 0) 31 0x3F, .ldh t0 0 (.reg 0) (.uimm 255) 8, .sth t0 0 (.uimm 255) (.reg 0) 1,
  .insh t0 0 (.uimm 0) (.uimm 255), .delh t0 0 (.uimm 256) (.uimm 0), .align t0 0 31, .lkx t0 0 0 (.reg 0) 0, .lkp t0 0 3 (.reg 0) 255,
  .lkt t0 0 0 (.reg 0) 0, .lkw t0 0 15, .br t0 0xFFF, .brc t0 15 1, .loop t0 0 16 1, .exit t0 0, .fwd t0 0, .drop t0 0,
  .repl t0 0, .punt t0 0 (.uimm 0xFFF), .punt t0 0 .none, .recirc t0 0, .slipDest t0 0 0xFFF (.reg 0), .slipClass t0 0 (.reg 0) (.reg 0),
  .slipEgr t0 0 (.reg 0) (.reg 0), .sasel t0 0 (.reg 0), .cread t0 0 (.reg 0) (.reg 0), .tstamp t0 0 (.reg 0) 0, .qdepth t0 0 (.reg 0) (.reg 0),
  .meter t0 0 (.reg 0) (.reg 0) .none, .balloc t0 0 (.reg 0) (.uimm 15), .ioam t0 0 (.hdrAbs 14 0) (.reg 0) 1, .abort t0 0]

/-- Each of them has a case that acts on a thread that may issue. -/
theorem test_witness_words : (words2.all fun i => actsB i (withThread ready)) = true := by decide

/-- A word gated false: the predicate names T0, which is 0 (R106). -/
theorem test_witness_gated : ∃ (i : Instr) (w : DWord) (s : State), MayIssue s t0 ∧ i.dword = some (t0, w) ∧ w.ok = true ∧ w.nw ≠ 0x00D ∧ w.nw ≠ 0x301 ∧
    w.nw ≠ 0x302 ∧ predHolds (s.thread t0) w.pred = false :=
  ⟨.nop t0 1, _, withThread ready, r0, rfl, by decide, by decide, by decide, by decide, by decide⟩

/-- A LOOP gated false. -/
theorem test_witness_gated_loop : ∃ w, (Instr.loop t0 1 16 1).dword = some (t0, w) ∧ w.ok = true ∧ w.nw = 0x302 ∧
    predHolds ((withThread ready).thread t0) w.pred = false := ⟨_, rfl, by decide, rfl, by decide⟩

/-- A word that no store can hold; a thread that is FREE; a halted Scribe; a Scribe without a physical one; a run at its WCET; a
thread whose turn it is not; a word of which one bit of the main copy is upset. -/
theorem test_witness_unissued : ∃ w w', (Instr.add t0 0 .none .none .none).dword = some (t0, w) ∧ w.ok = false ∧
    (Instr.nop t0 0).dword = some (t0, w') ∧ w'.ok = true ∧ (base.thread t0).state ≠ .ready ∧
    scribeIdx 0 0 ∈ ({ base with halted := [0] } : State).halted ∧
    0 ∈ (({ base with clusters := [(0, { Cluster.reset with noPhys := [0] })] } : State).cluster 0).noPhys ∧
    ((withThread { ready with issued := 10 }).thread t0).wcet ≤ ((withThread { ready with issued := 10 }).thread t0).issued ∧
    ({ base with threads := [(0, ready), (1, ready)] } : State).nextThread 0 0 = some 0 ∧
    ({ withThread ready with clusters := [(0, { Cluster.reset with mainErr := [(0, 1)] })] } : State).fetchBad t0 = some 0 :=
  ⟨_, _, rfl, by decide, rfl, by decide, by decide, by decide, by decide, by decide, by decide, by decide⟩

/-- A HASH of no bytes, of 63 by CRC-32C and of 36 by Toeplitz. -/
theorem test_witness_hash : ([0, 0x3F, 0x800 + 36, 0xFFF - 27] : List (BitVec 12)).all (fun c =>
    actsB (.hash t0 0 (.reg 0) 31 c) (withThread ready)) = true := by decide

/-- A directory with one valid table of the Stacks in the pair of slice 0: kind 6, COUNT 4. -/
def dirOf (e : List Word32) : State := { withThread ready with dir := [(0, e)] }

/-- POST: an index below COUNT, one at it, and an invalid table. -/
theorem test_witness_post : let s := dirOf [0xB0000000, 0, 4, 0, 0, 0, 0, 0];
    dirValid (s.dirLive 0 0) = true ∧ dirKind (s.dirLive 0 0) = 6 ∧ 3 < ((s.dirLive 0 0).getD 2 0).toNat ∧
    ¬4 < ((s.dirLive 0 0).getD 2 0).toNat ∧ dirValid (s.dirLive 0 1) = false := by decide

/-- A table of each kind: EXACT, INDEXED of four entries, TERNARY of two, and the three longest-prefix kinds, one with a default. -/
def lookupTables : List (List Word32) := [[0x80000000, 0, 0, 0, 0, 0, 0, 0], [0xA8000000, 0, 4, 0, 0, 0, 0, 0],
  [0xA0000000, 0, 2, 0, 0, 0, 0, 0], [0x88000000, 0, 0, 0, 0, 0x80000000, 0, 0], [0x90000000, 0, 0, 0, 0, 0, 0, 0],
  [0x98000000, 0, 0, 0, 0, 0, 0, 0]]

/-- A lookup of each kind is valid, and no unit that it can read is uncorrectable, whatever the buckets; entry 3 of four is below
COUNT, entry 4 is not. -/
theorem test_witness_lookup :
    (lookupTables.map fun e => (dirValid ((dirOf e).dirLive 0 0), dirKind ((dirOf e).dirLive 0 0), dirB e 6 31)) =
      [(true, 0, false), (true, 5, false), (true, 4, false), (true, 1, false), (true, 2, false), (true, 3, false)] ∧
    (∀ e w u, (dirOf e).unitErr w u = false) ∧ (∀ e bs, (dirOf e).anyErr bs = false) ∧
    dirF [0xA8000000, 0, 4, 0, 0, 0, 0, 0] 2 23 0 ≤ 4 ∧ 3 < dirF [0xA8000000, 0, 4, 0, 0, 0, 0, 0] 2 23 0 :=
  ⟨by decide, fun _ _ _ => rfl, fun _ bs => List.any_eq_false.mpr (fun _ _ => Bool.false_ne_true), by decide, by decide⟩

/-- A lookup outstanding into L0, which the thread awaits, and whose result has arrived. -/
theorem test_witness_lookup_delivery : ∃ s u : State,
    (s.thread t0).state = .ready ∧ (s.thread t0).l[0].issued = some (0, .miss) ∧ (s.thread t0).l[0].arrived = false ∧
    (u.thread t0).state = .blocked ∧ (u.thread t0).waiting = 1 ∧ (u.thread t0).l[0].issued = some (0, .miss) ∧
    (u.thread t0).l[0].arrived = true ∧
    (∀ i : Fin 4, bit (u.thread t0).waiting i.val = true → (u.thread t0).l[i].issued = none ∨ (u.thread t0).l[i].arrived = true) :=
  ⟨withThread { ready with l := ready.l.set 0 { LSlot.fresh with issued := some (0, .miss) } },
   withThread { ready with
     state := .blocked
     waiting := 1
     l := ready.l.set 0 { LSlot.fresh with
       issued := some (0, .miss)
       arrived := true } },
   by decide, by decide, by decide, by decide, by decide, by decide, by decide, by decide⟩

/-- A count of 16, one of 0, and a gated LOOP, outside a loop body; BRC with a condition that holds and one that fails. -/
theorem test_witness_flow : (ready.loop = none) ∧ predHolds ready 0 = true ∧ (16 : BitVec 12).toNat ≠ 0 ∧ predHolds ready 0xF = false ∧
    actsB (.brc t0 0 0xFFF) (withThread ready) = true ∧ actsB (.loop t0 0 0 1) (withThread ready) = true := by decide

/-- Call slip words in a run of ingress and of egress. -/
theorem test_witness_slip : actsB (.slipDest t0 0 15 (.reg 0)) (withThread { ready with egress := true }) = true ∧
    actsB (.slipDest t0 0 15 (.reg 0)) (withThread ready) = true ∧ ready.egress = false := by decide

/-- Both markers, with each of the pre-colours, with a bucket that holds the packet, one that does not, and a rate of 0. -/
theorem test_witness_meter : let s := withRegs (withThread { ready with slip := slipPut 0 7 8 }) [(Reg.tmMeter 0 0 0, 0xC0000000), (Reg.tmMeter 0 0 2, 0xFFFFFFFF)];
    actsB (.meter t0 0 (.reg 0) (.reg 0) (.uimm 64)) s = true ∧ bit (s.cfg (Reg.tmMeter 0 0 0)) 31 = true ∧
    bit (s.cfg (Reg.tmMeter 0 1 0)) 31 = false ∧ (s.cfg (Reg.tmMeter 0 0 2)).toNat / 2 ^ 16 ≠ 0 ∧
    (s.cfg (Reg.tmMeter 0 1 2)).toNat % 2 ^ 16 = 0 ∧
    min 2 ((slipByte (s.thread t0).slip 7).toNat / 8 % 4) = 1 ∧ min 2 ((slipByte (slipPut 0 7 24) 7).toNat / 8 % 4) = 2 := by decide +kernel

/-- BALLOC with a buffer in the cache, and with no pool at all. -/
theorem test_witness_balloc : let s := withPool (withThread ready) 15 0 [4];
    actsB (.balloc t0 0 (.reg 0) (.uimm 15)) s = true ∧ s.poolCount 15 ≠ 0 ∧ (s.pool 15).cache 0 = 4 :: [] ∧ s.poolCount 0 = 0 := by decide

/-- A trace option at 14 with NodeLen 1, and RemainingLen 1 or 0; TRACE-TYPE asks for nothing; a header that is absent. -/
def ioamThread (rem : Byte) : Thread := { ready with
  win := List.replicate 16 0 ++ [0x08, rem, 0, 0, 0, 0] ++ List.replicate 12 0 }

/-- IOAM with room and without, in both modes. -/
theorem test_witness_ioam : hdrPlace (ioamThread 1) (.hdrAbs 14 0) = some 14 ∧ hdrPlace { ready with slip := slipBase } (.hdrRel 0 0 0) = none ∧
    bigEndian (fun k => (ioamThread 1).win.getD k 0) 16 2 / 2048 = 1 ∧ bigEndian (fun k => (ioamThread 1).win.getD k 0) 16 2 % 128 = 1 ∧
    bigEndian (fun k => (ioamThread 0).win.getD k 0) 16 2 % 128 < 1 ∧ bigEndian (fun k => (ioamThread 1).win.getD k 0) 18 3 / 2 % 2 = 0 ∧
    ((withThread (ioamThread 1)).ioamData (ioamThread 1) 0 0).length ≤ 4 ∧
    actsB (.ioam t0 0 (.hdrAbs 14 0) (.reg 0) 0) (withThread (ioamThread 1)) = true := by decide +kernel

/-! ### Reset, clocks, ticks, ends of runs -/

/-- The phases that the start-up statement begins from; window counts at both ends of their range. -/
theorem test_witness_startup :
    State.reset.boot.inReset = true ∧
    ({ base with boot := { base.boot with windowOpen := true } } : State).boot.windowOpen = true ∧
    ({ base with boot := { base.boot with proving := true } } : State).boot.proving = true ∧
    (inPhase .aonUp).boot.phase = .aonUp ∧ (inPhase .refCheck).boot.inReset = false ∧ (inPhase .refCheck).boot.phase ≠ .coldWait ∧
    102380 ≤ 102420 ∧ 3 ≤ (inPhase .refCheck).boot.refGood ∧ ¬3 ≤ ({ base.boot with refGood := 2 } : Boot).refGood ∧
    (inPhase .coreUp).boot.phase = .coreUp ∧ (inPhase .memTrain).boot.phase = .memTrain := by decide

/-- A core that runs, and one that does not, without a stop; a stop two boundaries old at K = 8; a device halted for a loss of REFCLK. -/
theorem test_witness_clock_loss :
    base.coreOn = true ∧ (inPhase .refCheck).coreOn = false ∧ base.boot.stop = none ∧
    (∃ s : State, s.boot.stop = some .refLoss ∧ s.power.k ≤ 8 ∧ 2 ≤ s.boot.stopAge) ∧
    ∃ s : State, s.boot.phase = .halted ∧ s.boot.haltedBy = some .refLoss ∧ 4 ≤ s.boot.refGood :=
  ⟨by decide, by decide, rfl,
   ⟨{ base with
      boot := { base.boot with
        stop := some .refLoss
        stopAge := 2 }
      power := { base.power with k := 8 } }, rfl, by decide, by decide⟩,
   ⟨{ base with boot := { base.boot with
      phase := .halted
      haltedBy := some .refLoss } }, rfl, rfl, by decide⟩⟩

/-- The last tick of a sync period, after one bad pulse. -/
def syncing : State :=
  { base with alm := { base.alm with
      tick := 1023
      syncBad := 1 } }

/-- TICK_SYNC follows with the strap; a count at SYNC_LIMIT 1; a pulse in step, and one that is not. -/
theorem test_witness_sync : let s := withReg syncing Reg.almSync 0x01000000;
    bit s.boot.straps 8 = true ∧ s.boot.phase = .running ∧ s.cfgF Reg.almSync 27 24 ≠ 0 ∧ s.cfgF Reg.almSync 27 24 ≤ s.alm.syncBad ∧
    s.alm.syncLost = false ∧ s.dcp.notices.length < 1024 ∧ s.inStep 23 = true ∧ s.inStep 24 = false ∧
    bit (inPhase .loaded).boot.straps 8 = true ∧ (inPhase .loaded).coreOn = true := by decide

/-- RESYNC written; TICK_OUT_EN at tick 1,023 with no delay; detectors that are active. -/
theorem test_witness_resync : let s := withReg { base with alm := { base.alm with tick := 1024 } } Reg.almCtl 3;
    bit (s.reg Reg.almCtl) 1 = true ∧ bit s.boot.straps 8 = true ∧ s.cfgB Reg.almCtl 0 = true ∧
    (s.now + (if s.cfgF Reg.almSync 12 8 = 0 then 0 else 1)) % 1024 = 0 ∧ (inPhase .loaded).coreOn = true ∧
    (inPhase .loaded).droopIn 0 = true := by decide

/-- No run of a device with one thread holds a packet. -/
theorem ready_inCells : InCells (withThread ready) := by
  refine ⟨fun n p h => ?_, fun x h => absurd h (List.not_mem_nil)⟩
  rw [show ((withThread ready).threadN n).pkt = none by
    simp only [State.threadN, withThread, SMap.find]; split <;> rfl] at h
  cases h

/-- A machine check of a READY thread, from each source: one upset bit in the first word or nanoword, or a run at its WCET; and two bits
that keep the parity. -/
theorem test_witness_machine_check :
    MayFetch (withThread ready) t0 ∧ InCells (withThread ready) ∧ (withThread ready).core.waitHand = [] ∧
    ((withThread ready).cluster 0).physOf 0 < 128 ∧ ((withThread ready).thread t0).pc < 16384 ∧
    Fails 0 (upsetOf (withThread ready) 0 0 false ^^^ 1) ∧ Fails 16384 (upsetOf (withThread ready) 0 16384 false ^^^ (1 <<< 395)) ∧
    ¬Fails 0 (upsetOf (withThread ready) 0 0 false ^^^ 3) ∧ ¬Fails 16384 (upsetOf (withThread ready) 0 16384 false) ∧
    ((withThread { ready with issued := 10 }).thread t0).wcet ≤ ((withThread { ready with issued := 10 }).thread t0).issued :=
  ⟨r0.toMayFetch, ready_inCells, rfl, by decide, by decide, by decide +kernel, by decide +kernel, by decide +kernel, by decide +kernel, by decide⟩

/-- Control stores under scrub: the first word is next, or the pass has to wait. -/
theorem test_witness_scrub : let s := withReg loaded (Reg.psScrubCtl 0) 1;
    s.cfgB (Reg.psScrubCtl 0) 0 = true ∧ s.coreOn = true ∧ (s.cluster 0).scrubNext s.now = some 0 ∧
    ({ s.cluster 0 with scrubTick := 2 } : Cluster).scrubTick ≠ 0 ∧ s.now + 1 < 2 + 65536 ∧ (s.cluster 0).scrubAt = 0 ∧
    (s.cluster 0).state ≠ .failed := by decide

/-- A run that overruns, READY or BLOCKED, and one that has retired first, having counted and dropped its packet. -/
def retired : State := withThread { ready with
  state := .retired
  pkt := some pkt
  buf := [.cnt 0x1FFFF 1, .fate .drop] }

theorem test_witness_commit : (retired.thread t0).state = .retired ∧ retired.retiredOrder.head? = some (tidIdx t0) ∧
    retired.core.waitHand = [] ∧
    (retired.thread t0).buf = [(0x1FFFF, (1 : BitVec 64))].map (fun e => CEntry.cnt e.1 e.2) ++ [.fate .drop] ∧
    (retired.thread t0).looks = [] ∧ (retired.thread t0).pkt = some pkt ∧ pkt.bad = none ∧
    ((withThread { ready with state := .blocked }).thread t0).state = .blocked :=
  ⟨by decide, by simp [State.retiredOrder, retired, withThread, ready, tidIdx, t0], rfl, rfl, rfl, rfl, rfl, rfl⟩

/-! ### Frames and placement -/

theorem portUp_receives : Receives portUp 0 ∧ Receives portCut 0 :=
  ⟨⟨by decide, by decide, by decide, by decide, by decide, by decide⟩, ⟨by decide, by decide, by decide, by decide, by decide, by decide⟩⟩

/-- A frame of the least length that is no runt is taken whole. -/
theorem test_witness_frame : let d : List Byte := List.replicate 60 0;
    portUp.cutPort 0 = false ∧ rxError portUp 0 (d.length + 4) .good = none ∧ isPause d = false ∧ rxPool portUp 0 = 0 ∧
    HasCells portUp 0 0 ((d.length + 4 + 255) / 256) ∧ ClassOf portUp 0 d 0 ∧ RoomFor portUp 0 d :=
  ⟨by decide, by decide, by decide, by decide, ⟨by decide, by decide, by decide⟩, by unfold ClassOf; decide +kernel,
   ⟨by decide, by decide⟩⟩

/-- Each error of R256: a code error, a runt of 63 bytes, a frame one byte too long, a bad FCS. -/
theorem test_witness_frame_error :
    rxError portUp 0 64 .code = some 0x04 ∧ rxError portUp 0 63 .good = some 0x02 ∧
    rxError portUp 0 (portUp.maxFrame 0 + 1) .good = some 0x03 ∧ rxError portUp 0 64 .fcs = some 0x01 ∧ HasCells portUp 0 0 1 :=
  ⟨by decide, by decide, by decide, by decide, ⟨by decide, by decide, by decide⟩⟩

/-- A control frame, of which no packet is made. -/
theorem test_witness_cut_pause : let d : List Byte := List.replicate 12 0 ++ [0x88, 0x08, 0x00, 0x01] ++ List.replicate 240 0;
    d.length = 256 ∧ isPause d = true := by decide +kernel

/-- A frame taken early. -/
theorem test_witness_cut : let d : List Byte := List.replicate 256 0;
    portCut.cutPort 0 = true ∧ d.length = 256 ∧ HasCells portCut 0 0 1 ∧ ClassOf portCut 0 d 0 ∧ RoomFor portCut 0 d :=
  ⟨by decide +kernel, by decide +kernel, ⟨by decide +kernel, by decide +kernel, by decide +kernel⟩, by unfold ClassOf; decide +kernel, ⟨by decide +kernel, by decide +kernel⟩⟩

/-- The end of the frame is good with no byte more, or bad. -/
theorem test_witness_cut_end :
    partial'.rx.find? (fun x => x.1 == 0) = some (0, ⟨7, 256, none, none⟩) ∧ rxError partial' 0 (256 + 0 + 4) .good = none ∧
    partial'.cipher.icv.find? (fun x => x.1 == 7) = none ∧ (∃ p ∈ (partial'.slice 0).fifo, p.isOf 7 = true ∧ p.ended = false) ∧
    partial'.core.transit.find? (fun t => t.more && decide (t.pkt.id = 7)) = none ∧ partial'.core.waitHand = [] ∧
    HasCells partial' 0 0 ((0 + 4 + 255) / 256) ∧ rxError partial' 0 (256 + 0 + 4) .fcs ≠ none :=
  ⟨by decide, by decide, by decide, ⟨part, List.mem_singleton.mpr rfl, rfl, rfl⟩, rfl, rfl, ⟨by decide, by decide, by decide⟩, by decide⟩

/-- A packet alone in the FIFO; a packet dequeued for egress; one whose entry does not exist. -/
def placing : State := { portUp with slices := [(0, { Slice.reset with
  fifo := [pkt]
  egress := [pkt] })] }

theorem test_witness_place :
    placing.boot.phase = .running ∧ (placing.slice 0).recq = [] ∧ (placing.slice 0).inj = [] ∧ (placing.slice 0).fifo = [pkt] ∧
    placing.core.waitHand = [] ∧ placing.alm.next ≤ 8 ∧ placing.entryExists (bits (slipByte pkt.slip 4) 5 0) false = true ∧
    (placing.findScribe 0 (placing.slice 0).last (bits (slipByte pkt.slip 4) 5 0) false 0 0).isSome = true ∧
    (placing.slice 0).egress = [pkt] ∧ pkt.bad = none ∧ placing.entryExists pkt.egEntry true = true ∧
    (placing.egressScribe 0 pkt).isSome = true ∧ placing.flowing = true ∧
    (placing.slice 0).accDone = false ∧ placing.entryExists 1 true = false ∧ ({ pkt with slip := 1 <<< (8 * 0x3E) } : Pkt).egEntry = 1 :=
  ⟨rfl, rfl, rfl, rfl, rfl, by decide, by decide +kernel, by decide +kernel, rfl, rfl, by decide +kernel, by decide +kernel, by decide,
   rfl, by decide +kernel, by decide +kernel⟩

/-- A Scribe that keeps its budget with nothing bound. -/
theorem test_witness_budget : KeepsBudget portUp 0 0 := ⟨by decide, by decide⟩

/-- A port that can send and receive pause, with a PAUSE_TIME. -/
theorem test_witness_pause : let s := withReg portUp (Reg.octPortFrame 0 0) 0x25801234;
    s.portExists 0 = true ∧ (s.port 0).state = .up ∧ s.portLoop 0 = 0 ∧ s.cfgF (Reg.octPortFrame 0 0) 15 0 ≠ 0 ∧
    (let x : Port := { s.port 0 with rxPaused := 1 }; bit x.rxPaused 0 = true ∧ SMap.find 0 x.pauseEnd 0 ≤ s.now) := by decide

/-! ### Queues and transmit -/

theorem arriving_arrives : Arrives arriving 0 frame60 [] ∧ Arrives { arriving with ports := [] } 0 frame60 [] ∧
    Arrives (withReg arriving (Reg.tmQueue 0 0 1) 1) 0 frame60 [] :=
  ⟨⟨rfl, rfl, by decide +kernel, by decide +kernel⟩, ⟨rfl, rfl, by decide +kernel, by decide +kernel⟩,
   ⟨rfl, rfl, by decide +kernel, by decide +kernel⟩⟩

/-- A queue that shelves; a tail of n cells, with a limit of one. -/
def shelvingQueue (n : Nat) : State :=
  let s := withReg arriving (Reg.circShelveB 0) 1
  { s with tm := { s.tm with queues := [(0, { Queue.reset with
      shelv := true
      tail := n })] } }

theorem test_witness_arrival :
    ({ arriving with ports := [] } : State).inService 0 = false ∧ arriving.inService 0 = true ∧
    frame60.destPort = 0 ∧ frame60.destQueue = 0 ∧ frame60.cells = 1 ∧
    OverLimit fullQueue 0 0 1 ∧ ¬OverLimit arriving 0 0 1 ∧ bit (arriving.queueWord 0 2) 27 = false ∧
    (arriving.queue 0).shelv = false ∧
    ((shelvingQueue 1).queue 0).shelv = true ∧ bit ((shelvingQueue 1).shelveB 0) 31 = false ∧
    bits ((shelvingQueue 1).shelveB 0) 11 0 ≤ ((shelvingQueue 1).queue 0).tail ∧
    ((shelvingQueue 0).queue 0).tail < bits ((shelvingQueue 0).shelveB 0) 11 0 ∧ ¬OverLimit (shelvingQueue 1) 0 0 1 := by
  unfold OverLimit
  decide +kernel

/-- A packet first in its queue, wholly in the head, that takes no egress run. -/
def queued : State :=
  { portUp with tm := { Tm.reset with queues := [(0, { Queue.reset with
      pkts := [{ frame60 with noRun := true }]
      head := 1 })] } }

theorem test_witness_dequeue :
    queued.flowing = true ∧ (queued.port 0).state = .up ∧ queued.inService 0 = true ∧ queued.peakOk 0 (portNode 0) = true ∧
    (queued.slice 0).egress = [] ∧ (∀ q ∈ queued.portQueues 0, ∀ p ∈ (queued.queue q).pkts, p.bad = none) ∧
    (∃ q ∈ queued.portQueues 0, queued.queueReady q = true ∧ ∃ p rest, (queued.queue q).pkts = p :: rest ∧ p.noRun = true) := by
  have h : queued.portQueues 0 = [0] := by decide +kernel
  refine ⟨by decide, by decide, by decide, by decide, by decide, ?_, 0, ?_, by decide +kernel, _, _, rfl, rfl⟩
  · rw [h]
    intro q hq p hp
    obtain rfl := List.mem_singleton.mp hq
    obtain rfl := List.mem_singleton.mp hp
    rfl
  · rw [h]
    exact List.mem_singleton.mpr rfl

/-- The dispatcher can place the packet's egress run. -/
theorem test_witness_dequeue_run : (queued.slice 0).accDone = false ∧ (queued.slice 0).egress = [] ∧
    (queued.entryExists frame60.egEntry true = false ∨ (queued.egressScribe 0 frame60).isSome = true) := by
  decide +kernel

/-- A packet in the highest class, 7. -/
theorem test_witness_host_dequeue :
    hostUp.flowing = true ∧ (hostUp.hp 0).state = .up ∧ (hostUp.port 512).wire = [] ∧ hostUp.hostQueue 0 7 = [pkt] ∧
    (∀ k, 7 < k → k < 8 → hostUp.hostQueue 0 k = []) ∧ pkt.bad = none :=
  ⟨by decide, rfl, rfl, rfl, fun k h1 h2 => by omega, rfl⟩

/-- A frame that may depart, with and without a receive record, on a port with TC_EN; its PTP header is at 40. -/
def ptpFrame : Pkt := { pkt with
  data := List.replicate 41 0 ++ [2] ++ List.replicate 30 0
  slip := slipPut slipBase 0x10 40
  rxStamp := some (0, 0, 0) }

def departing (p : Pkt) : State :=
  withRegs { portUp with slices := [(0, { Slice.reset with done := [p] })] }
    [(Reg.timePort 0 0, 0x80000000), (Reg.timeCfg, 0x1)]

theorem test_witness_transmit : Departs (departing frame60) 0 frame60 ∧ frame60.rxStamp = none ∧ frame60.oneStep = false := by
  exact ⟨⟨by decide +kernel, by decide +kernel, by decide +kernel, by decide, by decide, by decide +kernel, by decide +kernel, by decide +kernel⟩, rfl, rfl⟩

theorem test_witness_ptp : Departs (departing ptpFrame) 0 ptpFrame ∧ ptpFrame.rxStamp = some (0, 0, 0) ∧ ptpFrame.oneStep = false ∧
    (departing ptpFrame).cfgB (Reg.timePort ptpFrame.destPort 0) 31 = true ∧
    ptpFrame.hdrOff ((departing ptpFrame).cfgF Reg.timeCfg 12 8) = 40 ∧
    ptpFrame.hdrOff ((departing ptpFrame).cfgF Reg.timeCfg 4 0) = 0xFF ∧ 60 ≤ ptpFrame.data.length ∧ 40 + 16 ≤ ptpFrame.data.length ∧
    (ptpFrame.data.getD 41 0).toNat % 16 = 2 ∧ (ptpFrame.data.getD 40 0).toNat % 16 ≤ 3 :=
  ⟨⟨by decide +kernel, by decide +kernel, by decide +kernel, by decide, by decide, by decide +kernel, by decide +kernel, by decide +kernel⟩, rfl, rfl, by decide +kernel, by decide +kernel,
   by decide +kernel, by decide +kernel, by decide +kernel, by decide +kernel, by decide +kernel⟩

/-- A frame on the wire of L000 and of HP0, with a timestamp asked; a queue of timestamps with room, and a full one. -/
theorem test_witness_complete : ∃ s f : State, (s.port 0).wire = [{ pkt with tsId := some 5 }] ∧
    (s.port 512).wire = [pkt] ∧ pkt.ended = true ∧ s.time.tsq.length < 64 ∧ 64 ≤ f.time.tsq.length :=
  ⟨{ portUp with ports := [(0, { Port.reset with wire := [{ pkt with tsId := some 5 }] }), (512, { Port.reset with wire := [pkt] })] },
   { portUp with time := { Time.reset with tsq := List.replicate 64 ⟨0, 0, 0, 0⟩ } },
   rfl, rfl, rfl, by decide, by decide⟩

/-- The same port in near-end PCS loopback. -/
theorem test_witness_complete_loop : (withReg portUp (Reg.octPortCfg 0 0) 0x30000000).portLoop 0 = 3 ∧ portUp.portLoop 0 = 0 := by
  decide

/-- No packet of this device has a cell outside the ODB pools. -/
theorem test_witness_held : HeldInCells queued ∧ ∀ q, (queued.queue q).pages = [] := by
  refine ⟨⟨?_, by decide⟩, fun q => ?_⟩
  · have h : queued.allPkts.all (fun p => p.bufs.isEmpty) = true := by decide +kernel
    intro p hp b hb
    rw [List.all_eq_true] at h
    rw [List.isEmpty_iff.mp (h p hp)] at hb
    cases hb
  · simp only [State.queue, queued, SMap.find]
    split <;> rfl

/-- A port under flush: with a queue of one packet, and with none. -/
theorem test_witness_flush : ∃ s e : State, s.tm.flushing.contains 0 = true ∧ s.flushedOf 0 ≤ 256 ∧ s.queuePort 0 = 0 ∧
    (s.queue 0).pkts ≠ [] ∧ e.tm.flushing.contains 0 = true ∧ e.tm.flushEnd.contains 0 = false ∧ (∀ q, e.queuePort q = 0 → (e.queue q).pkts = []) :=
  ⟨{ queued with tm := { queued.tm with flushing := [0] } }, { portUp with tm := { Tm.reset with flushing := [0] } },
   by decide, by decide, by decide, by decide, by decide, by decide, fun _ _ => rfl⟩

/-! ### The control protocol -/

/-- A register of a host port that is plainly read and written: HP_CFG of HP0. -/
theorem test_witness_register :
    (regRow (Reg.hpCfg 0)).isSome = true ∧ (∀ row, regRow (Reg.hpCfg 0) = some row → ReadsPlain hostUp hdr (Reg.hpCfg 0) row) ∧
    PlainReg (Reg.hpCfg 0) ∧ hostUp.regRefusal (Reg.hpCfg 0) = 0 ∧
    regRow 0x100 = none ∧ hostUp.regRefusal 0x100 = 0 ∧ hostUp.regRefusal 0x101 ≠ 0 ∧ hostUp.boot.phase = .running := by
  refine ⟨by decide, fun row h => ?_, Or.inl ⟨by decide, by decide⟩, by decide, by decide, by decide, by decide, by decide⟩
  have hn : (regRow (Reg.hpCfg 0)).all (fun r => !r.wide) = true := by decide
  rw [h] at hn
  exact ⟨h, by simpa using hn, by decide, by decide, by decide, by decide, by decide, by decide⟩

theorem test_witness_operations : NewOp (hostIn .running) hdr ∧ AsWarden (hostIn .running) hdr ∧ NewOp (hostIn .loaded) hdr ∧
    AsWarden (hostIn .loaded) hdr := ⟨hdr_new _ (by decide), hdr_warden _ (by decide), hdr_new _ (by decide), hdr_warden _ (by decide)⟩

/-- Bulk transfers at the ends of their ranges: the last word of a wing, and the first of the Stacks. -/
theorem test_witness_bulk :
    mapped.stacksOk 0 4 = true ∧ mapped.inChron 0 4 = false ∧ mapped.gddr.readFail = [] ∧
    (∀ i, i < 4 → mapped.inRegion 1 (0 + i) 1 = false ∧ mapped.inRegion 2 (0 + i) 1 = false) ∧
    (0xB00013FFFFFC - 0xB00013FFFFFC + 4) % 4 = 0 ∧ wingAddr 7 0x3FFFFFC % 4 = 0 ∧ 0x3FFFFFC + 4 ≤ 0x4000000 ∧
    (hostUp.wing 7).dead.contains (0x3FFFFFC / 64) = false ∧ lockable (0x3FFFFFC / 64) = true ∧
    lockable (0x3FFFFFC / 64) = true ∧ (0 : Nat) < 4 := by decide +kernel

/-- An operation of a session that is closed; one already answered; one too old. -/
def answered : State := { hostUp with dcp := { hostUp.dcp with sessions := [(3, { Session.closed with
  isOpen := true
  ver := 3
  h := 1
  cache := [⟨hdr, 0, 0, [], none⟩] })] } }

theorem test_witness_once :
    (hostUp.session 4).isOpen = false ∧ (answered.session 3).isOpen = true ∧
    ¬(0 < (hdr.seq - (answered.session 3).h).toNat ∧ (hdr.seq - (answered.session 3).h).toNat < 2 ^ 31) ∧
    (answered.session 3).cache.find? (fun x => decide (x.hdr.seq = hdr.seq)) = some ⟨hdr, 0, 0, [], none⟩ ∧
    (∀ x ∈ (answered.session 3).cache, x.hdr.seq ≠ 0) ∧ (∀ o ∈ (answered.session 3).prog, o.seq ≠ 0) ∧
    ({ hostUp with dcp := { hostUp.dcp with warden := none } } : State).dcp.warden ≠ some 3 ∧
    opLengthOk 6 (List.replicate 12 0) = true := by decide

/-- A FENCE with and without DRAIN; a drain that nothing holds up; one that has lasted QMAX_SOJOURN. -/
theorem test_witness_fence :
    bit (waitingFor .running .fence 4).2.hdr.flags 2 = true ∧ bit (waitingFor .running .fence 0).2.hdr.flags 2 = false ∧
    (waitingFor .running .fence 0).2.passed = true ∧ (waitingFor .running (.drain 0 0) 4).2.what = .drain 0 0 ∧
    (∀ p ∈ (waitingFor .running (.drain 0 0) 4).1.allPkts, 0 ≤ p.drain) ∧ (waitingFor .running (.drain 0 0) 4).1.wings = [] ∧
    (let s := withReg { (waitingFor .running (.drain 0 0) 4).1 with alm := { base.alm with tick := 1 } } Reg.dcpQmaxSojourn 1;
      s.cfg Reg.dcpQmaxSojourn ≠ 0 ∧ 0 + (s.cfg Reg.dcpQmaxSojourn).toNat ≤ s.now) := by
  refine ⟨by decide, by decide, rfl, rfl, fun p _ => Nat.zero_le _, rfl, by decide⟩

/-- HELLO: a warden's with the next epoch, and one that finds the role held; TAKEOVER with a newer epoch and with one that is not. -/
theorem test_witness_sessions :
    Serves hostUp hdr ∧ (hostUp.dcp.warden = some hdr.session.val ∧ hostUp.dcp.epoch.toNat < ({ hdr with epoch := 1 } : OpHdr).epoch.toNat) ∧
    hostUp.dcp.warden = some 3 ∧ 3 ≠ ({ hdr with session := 4 } : OpHdr).session.val ∧
    (∀ i, i < 16 → (hostUp.session i).fresh = false) ∧ hostUp.dcp.notices.length < 1024 ∧
    hostUp.dcp.epoch.toNat < (1 : Word32).toNat ∧ (0 : Word32).toNat ≤ hostUp.dcp.epoch.toNat ∧ (hostUp.session 3).ver = 3 :=
  ⟨⟨⟨by decide, by decide⟩, rfl, rfl, rfl⟩, by decide, rfl, by decide, by decide, by decide, by decide, by decide, rfl⟩

/-- ENABLE with and without an operation to wait for; its check; a drain with nothing left, and one that a queue holds up. -/
theorem test_witness_enable :
    (∀ i, i < 16 → ((hostIn .loaded).session i).fresh = false) ∧ (hostIn .loaded).boot.phase = .loaded ∧
    ((waitingFor .checking .enable 0).1.boot.phase = .checking ∧ (waitingFor .checking .enable 0).1.dcp.check = none ∧ (waitingFor .checking .enable 0).1.boot.stop = none) ∧
    (inPhase .disabling).dcp.drained = false ∧ (inPhase .disabling).tm.residue = [] ∧ (inPhase .disabling).slices = [] ∧
    (∃ x ∈ ({ inPhase .disabling with tm := { Tm.reset with queues := [(0, { Queue.reset with pkts := [pkt] })] } } : State).tm.queues,
      x.2.pkts ≠ []) ∧ (inPhase .disabling).now < 0 + bits ((inPhase .disabling).cfg Reg.hubDisable) 19 0 := by
  refine ⟨by decide, rfl, ⟨rfl, rfl, rfl⟩, rfl, rfl, rfl, ⟨_, List.mem_singleton.mpr rfl, by decide⟩, by decide⟩

/-- A device with clusters 0 STOPPED, 1 RUNNING, 2 FAILED, 3 CHECKING; every other is EMPTY. -/
def clusters : State := { hostUp with clusters := [(0, { Cluster.reset with state := .stopped }), (1, { Cluster.reset with state := .running }),
  (2, { Cluster.reset with state := .failed }), (3, { Cluster.reset with state := .checking })] }

/-- Stop and start actions over all clusters that may be named; one that names the last EMPTY cluster, 31, or one under check. -/
theorem test_witness_clusters :
    (∀ k, k < 32 → bit (0xFFFFFFF7 : Word32) k = true → (clusters.cluster k).state ≠ .checking) ∧
    ((clusters.cluster 0).state = .stopped ∧ bit (3 : Word32) 0 = true ∧
      ∀ j, j < 32 → bit (3 : Word32) j = true → (clusters.cluster j).state = .stopped ∨ (clusters.cluster j).state = .running) ∧
    (bit (0x80000003 : Word32) 31 = true ∧ (clusters.cluster 31).state = .empty ∧
      ∀ j, j < 31 → bit (0x80000003 : Word32) j = true → (clusters.cluster j).state = .stopped ∨ (clusters.cluster j).state = .running) ∧
    (∀ j, j < 32 → (bit (8 : Word32) j = true ↔ j = 3)) ∧ (clusters.cluster 3).state = .checking ∧
    (waitingFor .running (.start 8 none) 0).2.what = .start 8 none :=
  ⟨by decide, by decide, by decide, by decide, by decide, rfl⟩

/-- A first segment; one that does not continue what is staged; a last segment of an image for an EMPTY cluster and for a RUNNING one. -/
theorem test_witness_images :
    ([1, 2] : List Byte).length < (3 : Word32).toNat ∧ ((1 : BitVec 8) = 1 ∨ (1 : BitVec 8) = 2) ∧ (4 : Word32) ≠ 0 ∧
    hostUp.dcp.staging = none ∧
    (∃ g : Staging, ({ hostUp with dcp := { hostUp.dcp with staging := some ⟨2, 4, 4, [0, 0]⟩ } } : State).dcp.staging = some g ∧
      g.kind = (2 : BitVec 8).toNat ∧ g.mask = 4 ∧ g.total = (4 : Word32).toNat ∧ g.bytes.length = (2 : Word32).toNat ∧
      g.bytes.length + ([0, 0] : List Byte).length = (4 : Word32).toNat) ∧
    (∀ j, j < 32 → (bit (4 : Word32) j = true ↔ j = 2)) ∧ (clusters.cluster 1).state = .running ∧ (clusters.cluster 4).state = .empty ∧
    hostUp.vigil.log.length ≤ 256 ∧ ([] : List Byte).length ≤ 8192 :=
  ⟨by decide, by decide, by decide, rfl, ⟨_, rfl, rfl, rfl, rfl, by decide, by decide⟩, by decide, by decide, by decide, by decide, by decide⟩

/-- FIELD_RECORD: what has been burnt fits the life log, whatever the part held (R418). -/
theorem test_witness_field_record : lifeBurnt + hostUp.vigil.life.length ≤ 128 := by
  have h : lifeBurnt ≤ 128 := Nat.min_le_left 128 Config.lifeUsed.toNat
  simpa [hostUp, base, State.reset, Vigil.reset] using h

/-- A READ in a DCP frame; an operation of a frame of 24 bytes that asks for one byte more than the frame has; a host frame of the
least length to every station. -/
theorem test_witness_host_frames :
    hostUp.portSt (512 + hdr.hp.val) = .up ∧ hdr.version ≠ 0 ∧ hdr.flags.toNat < 8 ∧ 5 ≤ hostUp.boot.phase.code ∧ hostUp.boot.phase.code ≤ 9 ∧
    ([] : List Byte).length < 1 ∧ (List.replicate 6 (0xFF : Byte)).length = 6 ∧
    (List.replicate 12 (0xFF : Byte) ++ [0, 0] ++ List.replicate 46 0).length = 60 ∧ 
    beNat [0x88, 0xB5] = bits (hostUp.cfg Reg.dcpEtype) 31 16 ∧ beNat [0x88, 0xB6] = bits (hostUp.cfg Reg.dcpEtype) 15 0 := by
  decide +kernel

/-- Inject headers: one bad, one INJECT_PORT of L000, one INJECT_PIPE with a class given and one to be parsed. -/
def injectBody (type flags : Byte) : List Byte := [1, type, flags, 0] ++ List.replicate 88 0

theorem test_witness_inject :
    (inPhase .loaded).boot.phase ≠ .running ∧ portUp.boot.phase = .running ∧
    (let b : List Byte := [1, 0x10, 8, 0] ++ List.replicate 88 0;
      (readInject b).known = true ∧ (readInject b).portOk = true ∧ (readInject b).ok (b.drop 32).length = false) ∧
    (readInject (injectBody 0x10 0)).type = 0x10 ∧ (readInject (injectBody 0x10 0)).ok ((injectBody 0x10 0).drop 32).length = true ∧
    (readInject (injectBody 0x11 0)).type = 0x11 ∧ (readInject (injectBody 0x11 1)).ok ((injectBody 0x11 1).drop 32).length = true ∧
    (readInject (injectBody 0x11 0)).flags % 2 = 0 ∧ (readInject (injectBody 0x11 1)).flags % 2 = 1 ∧
    (portUp.parse 0 0 ((injectBody 0x11 1).drop 32)).cls = some 0 ∧ injPool portUp 0 = 0 ∧
    (((injectBody 0x11 1).drop 32).length + 4 + 255) / 256 = 1 ∧ fifoSum (portUp.slice 0).inj + (128 + (min 256 60 + 63) / 64 * 64) ≤ 16384 := by
  decide +kernel

/-- A port that is down; a response that waits alone; notices that wait; every notice of the table; both ways of failover. -/
theorem test_witness_responses :
    base.portSt 512 ≠ .up ∧
    (∃ (s : State) (r : Resp), s.portSt (512 + r.hdr.hp.val) = .up ∧ s.dcp.resps = [r] ∧ s.dcp.active ≠ r.hdr.hp.val ∧ r.hdr.version = 3 ∧
      r.payload.length % 4 = 0 ∧ r.etype = none) ∧
    (∃ (s : State) (l : List Notice), s.portSt 512 = .up ∧ s.dcp.resps = [] ∧ s.dcp.active = 0 ∧ l ≠ [] ∧ s.dcp.notices = l ∧ l.length ≤ 64 ∧
      s.dcp.lostNow = 0) ∧
    ((0x71 : BitVec 16).toNat, (List.replicate 8 (0 : Byte)).length) ∈ noticeTable :=
  ⟨by decide,
   ⟨{ hostUp with dcp := { hostUp.dcp with
        resps := [⟨hdr, 0, 0, [1, 2, 3, 4], none⟩]
        active := 1 } }, _, rfl, rfl, by decide, rfl, rfl, rfl⟩,
   ⟨{ hostUp with dcp := { hostUp.dcp with notices := [⟨1, 0x20, 0, 0, []⟩] } }, _, rfl, rfl, rfl, by decide, rfl, by decide, rfl⟩,
   by decide⟩

theorem test_witness_failover :
    (let s := withReg { hostUp with dcp := { hostUp.dcp with hp0 := HostPort.reset } } Reg.dcpHostport 2;
      s.dcp.active < 2 ∧ s.portSt (512 + s.dcp.active) ≠ .up ∧ bit (s.cfg Reg.dcpHostport) 1 = true ∧
      s.portSt (512 + (1 - s.dcp.active)) = .up ∧ s.dcp.notices.length < 1024 ∧ (1 : Fin 2).val ≠ s.dcp.active ∧ (0 : Fin 2).val = s.dcp.active ∧
      ∀ k, k < 8 → SMap.find [] ({ s with tm := Tm.reset } : State).tm.hostQ (8 * s.dcp.active + k) = []) ∧
    (∃ s : State, s.dcp.active < 2 ∧ s.dcp.activeTo = none ∧ s.dcp.failTo = some 1 ∧ s.portSt (512 + (1 - s.dcp.active)) = .up) ∧
    (∃ s : State, s.dcp.activeTo = some (1 - s.dcp.active)) ∧
    bit ((withReg hostUp Reg.dcpHostport 0).cfg Reg.dcpHostport) 1 = false ∧
    (let s := withRegs hostUp [(Reg.dcpHostport, 2), (Reg.dcpKeepalive, 1)];
      bit (s.cfg Reg.dcpHostport) 1 = true ∧ s.portSt (512 + s.dcp.active) = .up ∧ bits (s.cfg Reg.dcpKeepalive) 15 0 ≠ 0 ∧
      (s.hp s.dcp.active).lastDcp = none) :=
  ⟨by decide, ⟨{ hostUp with dcp := { hostUp.dcp with failTo := some 1 } }, by decide, rfl, rfl, by decide⟩,
   ⟨{ hostUp with dcp := { hostUp.dcp with activeTo := some 1 } }, rfl⟩, by decide, by decide⟩

/-! ### Circulation and the Stacks -/

/-- A request of one cell, of more than there is, and of a pool with a fallback; a burst outstanding, with an empty ring, and with 64 in
it; a cache over its mark. -/
theorem test_witness_buffers :
    (Serving portUp .ingress 0 ∧ Serving portUp .scratch 0 ∧ 1 ≤ ((portUp.pool 0).cache 0).length ∧
      (((portUp.pool 0).cache 0).length < 5 ∧ ((portUp.pool 0).cache 0).Nodup ∧ ∀ b ∈ (portUp.pool 0).cache 0, portUp.inPool 0 b = true) ∧
      portUp.poolRa 0 = false) ∧
    (((portUp.pool 0).cache 1).length < 16 ∧ portUp.poolFallback 0 = none) ∧
    (let s := withReg portUp (Reg.circPoolCfg 1) 0x100000;
      (s.pool 1).cache 0 = [] ∧ s.poolFallback 1 = some 0 ∧ (0 : Nat) ≠ 1 ∧ Serving s .ingress 0) ∧
    (let s : State := { portUp with pools := [(0, { Pool.reset with bursts := [3] })] };
      3 ∈ (s.pool 0).bursts ∧ s.poolKind 0 < 2 ∧ (s.pool 0).count = 0 ∧ (s.pool 0).next + 64 ≤ s.poolCount 0) ∧
    (let s : State := { portUp with pools := [(0, { Pool.reset with bursts := [3], count := 64 })] };
      64 ≤ (s.pool 0).count) ∧
    (let s : State := { portUp with pools := [(0, { Pool.reset with caches := [(0, List.replicate 3585 0)] })] };
      3584 < ((s.pool 0).cache 0).length ∧ (s.pool 0).count + 64 ≤ s.poolCount 0) := by
  unfold Serving
  exact ⟨by decide, by decide, by decide, by decide, by decide, by decide +kernel⟩

/-- Every outcome of a free: no pool, a foreign number, a double, a wrong class, a good one. -/
theorem test_witness_frees :
    freeCode base 0 0 0 = 5 ∧ freeCode portUp 0 1 0 = 4 ∧ freeCode portUp 0 0 0 = 2 ∧
    (let s : State := { portUp with pools := [(0, { Pool.reset with words := [(0, 0x10)] })] };
      freeCode s 0 0 1 = 3 ∧ freeCode s 0 0 0 = 1) ∧
    (let s := withReg portUp (Reg.circPoolCfg 0) 0xF2;
      2 ≤ s.poolKind 0 ∧ s.poolRa 0 = false ∧ s.inPool 0 0 = true) ∧
    bit (base.reg Reg.circHostFreeCmd) 31 = false ∧ bit ((withReg base Reg.circHostFreeCmd 0x80000000).reg Reg.circHostFreeCmd) 31 = true ∧
    ({ base with freeChk := [⟨0, 0, 0, 0, false⟩] } : State).freeChk = ⟨0, 0, 0, 0, false⟩ :: [] := by decide

/-- Queue 0 shelves and holds a page of eight tail cells; its pool 0 is of pages. -/
def shelving (cache : List Nat) : State :=
  let s := withRegs { base with pools := [(0, { Pool.reset with caches := [(0, cache)] })] }
    [(Reg.circPoolCfg 0, 0xF2), (Reg.circPoolCount 0, 4096), (Reg.circShelveA 0, 0x80000000)]
  { s with tm := { Tm.reset with queues := [(0, { Queue.reset with
      shelv := true
      tail := 8 })] } }

theorem test_witness_shelving : PageFull (shelving [32]) 0 0 8 ∧ PageFull (shelving []) 0 0 8 ∧ ((shelving []).queue 0).retry = false ∧
    ((shelving [32]).pool 0).cache (0 / 65536) = 32 :: [] ∧ ((shelving []).pool 0).cache 0 = [] ∧ (shelving []).poolFallback 0 = none :=
  ⟨⟨by decide, by decide, by decide, by decide, by decide, by decide, by decide, by decide⟩,
   ⟨by decide, by decide, by decide, by decide, by decide, by decide, by decide, by decide⟩, by decide, by decide, by decide, by decide⟩

/-- A page of queue 0 that is being recalled into a head with room for it. -/
theorem test_witness_recall : ∃ (s : State) (pg : Page), (s.queue 0).pages = pg :: [] ∧ pg.recalling = true ∧ s.gddr.paused = false ∧
    bits (s.cfg (Reg.circRecall (s.queuePort 0))) 11 0 ≤ (s.queue 0).head + pg.cells :=
  ⟨{ base with tm := { Tm.reset with queues := [(0, { Queue.reset with
      head := 4095
      pages := [⟨⟨0, 32⟩, 8, false, true⟩] })] } }, _, rfl, rfl, rfl, by decide⟩

/-- Memory port 23: mapped, at its limit of errors, lost with its pages to be marked, under training. -/
theorem test_witness_memory_ports :
    ((withReg base (Reg.gdStatus 23) 2).gdMapped 23 = true ∧ (withReg base (Reg.gdStatus 23) 2).gdState 23 = 2) ∧
    (let s := withReg { base with gddr := { Stacks.reset with uncorr := [(23, [0])] } } (Reg.gdLimit 23) 0x100;
      bits (s.cfg (Reg.gdLimit 23)) 15 8 ≠ 0 ∧
      bits (s.cfg (Reg.gdLimit 23)) 15 8 ≤ ((SMap.find [] s.gddr.uncorr 23).filter (fun x => decide (s.now < x + 65536))).length) ∧
    (let s : State := { base with gddr := { Stacks.reset with remapping := [23] } }; 23 ∈ s.gddr.remapping ∧ s.dcp.notices.length < 1024) ∧
    (let s : State := { base with gddr := { Stacks.reset with marking := [23] } }; 23 ∈ s.gddr.marking ∧ 23 ∉ s.gddr.remapping) ∧
    (withReg base (Reg.gdStatus 23) 3).gdState 23 = 3 ∧ (inPhase .loaded).boot.phase ≠ .running ∧
    (let s := withReg base (Reg.stkCtl 3) 1; bit (s.cfg (Reg.stkCtl 3)) 0 = true ∧ 3 ∉ s.gddr.training) ∧
    3 ∈ ({ base with gddr := { Stacks.reset with training := [3] } } : State).gddr.training := by decide

/-- UNMAP and RETRAIN of a port as the host wrote them. -/
theorem test_witness_gd_ctl :
    (let s := withRegs base [(Reg.gdStatus 23, 2), (Reg.gdCtl 23, 2)];
      s.gdMapped 23 = true ∧ bit (s.cfg (Reg.gdCtl 23)) 1 = true ∧ bit (s.cfg (Reg.gdCtl 23)) 0 = false) ∧
    (let s := withRegs base [(Reg.gdStatus 23, 2), (Reg.gdCtl 23, 1)];
      s.gdState 23 = 2 ∧ bit (s.cfg (Reg.gdCtl 23)) 1 = false ∧ bit (s.cfg (Reg.gdCtl 23)) 0 = true) := by decide

/-! ### The Catalogue -/

/-- Table 0 of the pair of wing 0: EXACT, keys of 16 bits, results of 8, entries of 16 bytes, learning and aging, base 0x10000, one
bucket a way. -/
def exactTable : List Word32 := [0x800F0700, 0x30010000, 0, 0, 0, 0, 0, 0]

/-- A request to learn key 5 stands first at wing 0. -/
def learning (w : Wing) : State :=
  { base with
    dir := [(0, exactTable)]
    wings := [(0, { w with learnQ := [⟨0, 5, 7, 0, 0, 0⟩] })] }

theorem learning_learns : Learns (learning Wing.reset) 0 ⟨0, 5, 7, 0, 0, 0⟩ [] ∧
    Learns (learning { Wing.reset with locks := [0x10000] }) 0 ⟨0, 5, 7, 0, 0, 0⟩ [] ∧
    Learns ((learning Wing.reset).exactPut exactTable 0 0x10000 0 (exactMake exactTable false 5 6)) 0 ⟨0, 5, 7, 0, 0, 0⟩ [] :=
  ⟨⟨by decide, rfl, rfl, by decide, by decide, by decide, by decide⟩, ⟨by decide, rfl, rfl, by decide, by decide, by decide, by decide⟩,
   ⟨by decide +kernel, by decide +kernel, by decide +kernel, by decide +kernel, by decide +kernel, by decide +kernel, by decide +kernel⟩⟩

/-- The key stands nowhere and slot 0 is free; its first bucket is locked; it stands with another result. -/
theorem test_witness_learn :
    (let s := learning Wing.reset;
      (exactBuckets exactTable 0 5).head? = some (0, 0x10000) ∧ (∀ x ∈ exactBuckets exactTable 0 5, s.unitLocked x.1 x.2 = false) ∧
      s.unitDead 0 0x10000 = false ∧ s.exactFind exactTable (exactBuckets exactTable 0 5) 5 = none ∧ 0 < 64 / dirEsize exactTable ∧
      s.exactEntry exactTable 0 0x10000 0 % 2 = 0) ∧
    (learning { Wing.reset with locks := [0x10000] }).unitLocked 0 0x10000 = true ∧
    (let s := (learning Wing.reset).exactPut exactTable 0 0x10000 0 (exactMake exactTable false 5 6);
      (∀ x ∈ exactBuckets exactTable 0 5, s.unitLocked x.1 x.2 = false) ∧ s.unitDead 0 0x10000 = false ∧
      s.exactFind exactTable (exactBuckets exactTable 0 5) 5 = some (0, 0x10000, 0) ∧ s.exactEntry exactTable 0 0x10000 0 / 2 % 2 = 0 ∧
      exactRes exactTable (s.exactEntry exactTable 0 0x10000 0) = 6 ∧ (s.wing 0).frozen = [] ∧
      bits ((withReg s (Reg.catFlap 0) 0).cfg (Reg.catFlap 0)) 27 24 = 0) := by
  decide +kernel

/-- A request that failed eight times; a sweep that is due at its first unit, and one that is late. -/
theorem test_witness_sweep :
    ((⟨0, 5, 7, 8, 0, 0⟩ : Learn) ∈ [⟨0, 5, 7, 8, 0, 0⟩] ∧ ([⟨0, 5, 7, 8, 0, 0⟩] : List Learn).find? (fun x => decide (8 ≤ x.fails)) = some ⟨0, 5, 7, 8, 0, 0⟩) ∧
    (let s := withReg { learning Wing.reset with alm := { base.alm with tick := 65536 } } (Reg.catAge 0) 1;
      bits (s.cfg (Reg.catAge 0)) 15 0 ≠ 0 ∧ (s.wing 0).sweepTick + bits (s.cfg (Reg.catAge 0)) 15 0 * 65536 * s.sweepCount 0 0x10000 /
        max 1 (s.sweepCount 0 (2 ^ 20)) ≤ s.now ∧ s.sweepNext 0 (s.wing 0).sweepAt = some 0x10000 ∧
      s.exactOwner 0 0x10000 = some (0, exactTable) ∧ s.unitDead 0 0x10000 = false ∧ s.unitLocked 0 0x10000 = false ∧
      (s.wing 0).sweepTick + 65536 * bits (s.cfg (Reg.catAge 0)) 15 0 ≤ s.now ∧ (s.wing 0).sweepLate = false) ∧
    (({ Wing.reset with sweepNew := true } : Wing).sweepNew = true) := by decide +kernel

/-- Word-0 writes: one not valid, one of the reserved kind, one whose units another valid EXACT table holds; a unit to repair with
and without a repair unit left. -/
theorem test_witness_directory :
    bit (0x7FFFFFFF : Word32) 31 = false ∧ (bit (0xB8000000 : Word32) 31 = true ∧ bits (0xB8000000 : Word32) 29 27 = 7) ∧
    (let s := withReg (learning Wing.reset) (Reg.catDir 0 255 1) 0x10000;
      let e : DirEntry := 0x800F0700 :: (List.range 7).map (fun i => s.reg (Reg.catDir 0 255 (i + 1)));
      let f := s.dirView 0 0;
      bit (0x800F0700 : Word32) 31 = true ∧ bits (0x800F0700 : Word32) 29 27 = 0 ∧ dirValid f = true ∧ dirKind f = 0 ∧
      dirBase e < dirBase f + wayUnits (dirRepl f) 4 (dirLog2 f) ∧ dirBase f < dirBase e + wayUnits (dirRepl e) 4 (dirLog2 e)) ∧
    2 ^ 20 - 1 ∉ (base.wing 7).dead ∧ 2 ^ 20 - 1 ∉ (base.wing 7).bad ∧ (base.wing 7).repaired + (base.wing 7).bad.length < 256 ∧
    ¬({ Wing.reset with repaired := 256 } : Wing).repaired < 256 := by decide +kernel

/-! ### The switch core -/

/-- A cell of slice 0's own stream to itself. -/
def cell (last : Bool) : Cell :=
  { pkt := 0, first := true, last := last, expr := false, tc := 0, seq := 4, srcDev := 0, srcSl := 0, dstSl := 0, kind := 0, plane := 0,
    tick := 0, buf := none, copy := false, data := [] }

/-- Plane 15 holds it, and its context expects a number. -/
def delivering (last : Bool) (e : BitVec 16) : State :=
  { base with core := { Core.reset with
      planes := [(15, { Plane.reset with q := [cell last] })]
      ctx := [((cell last).ctx, { Reseq.reset with e := some e })]
      transit := [⟨pkt, 0, (cell last).ctx, 4, 1, 1, false, false, [], []⟩] } }

theorem delivering_delivers (e : BitVec 16) : Delivers (delivering false e) 15 (cell false).ctx (cell false) e ∧
    Delivers (delivering true e) 15 (cell true).ctx (cell true) e :=
  ⟨⟨by show 0 ≠ 2; decide, by show 0 < 625; decide, rfl, rfl, rfl,
    show base.ctxDev (cell false).ctx = base.devId by decide +kernel, rfl, Nat.le_refl 0⟩,
   ⟨by show 0 ≠ 2; decide, by show 0 < 625; decide, rfl, rfl, rfl,
    show base.ctxDev (cell true).ctx = base.devId by decide +kernel, rfl, Nat.le_refl 0⟩⟩

/-- The expected cell, not the last and the last of its packet; a later one; an earlier one; a plane under test. -/
theorem test_witness_cells :
    ((delivering false 4).reseq (cell false).ctx).held = [] ∧ (cell false).last = false ∧ (cell true).last = true ∧
    NotHead ⟨pkt, 0, (cell false).ctx, 4, 1, 1, false, false, [], []⟩ ∧
    (delivering true 4).core.transit.find? (fun y => y.pkt.id == (cell true).pkt && y.ctx == (cell true).ctx) =
      some ⟨pkt, 0, (cell true).ctx, 4, 1, 1, false, false, [], []⟩ ∧
    ((4 : BitVec 16) - 3).toNat = 1 ∧ (delivering false 3).heldAt 0 < 16384 ∧ 32768 ≤ ((4 : BitVec 16) - 5).toNat ∧
    (({ base with core := { Core.reset with planes := [(15, { Plane.reset with state := 2 })] } } : State).plane 15).state = 2 := by
  unfold NotHead
  decide +kernel

/-- The cell before the last of what a frame still arriving has sent. -/
theorem test_witness_head : (cell false).seq + 1 = 4 + BitVec.ofNat 16 1 ∧ 1 < 2 + 1 := by decide

/-- A gap of one number, held open to the limit, and one that is not. -/
theorem test_witness_gap :
    (let s : State := { base with
      alm := { base.alm with tick := 255 }
      core := { Core.reset with ctx := [(0, ⟨some 3, some 0, [cell false]⟩)] } };
      s.ctxDev (4096 * 0 + 0 % 4096) = s.devId ∧ s.core.flushEnd ≤ s.now ∧ (s.reseq 0).gap = some 0 ∧
      0 + max 1 (bits (s.cfg Reg.coreReseq) 7 0) ≤ s.now ∧ (s.reseq 0).e = some 3 ∧ (s.reseq 0).held = [cell false] ∧
      ((cell false).seq - 3).toNat ≠ 0) ∧
    (let s : State := { base with core := { Core.reset with ctx := [(0, ⟨some 3, some 0, [cell false]⟩)] } };
      s.now < 0 + max 1 (bits (s.cfg Reg.coreReseq) 7 0)) := by decide +kernel

/-- The device with plane 0 in a state. -/
def planeIn (x : Plane) (l : List (Nat × Word32)) : State :=
  withRegs { base with core := { Core.reset with planes := [(0, x)] } } l

/-- A plane that missed its heartbeats, one with too many errors, one taken out, one with no cause. -/
theorem test_witness_planes :
    (let s := planeIn { Plane.reset with missed := 1 } [(Reg.plLimit 0, 0x10000)]; let b := (s.plane 0).beat;
      b.state = 0 ∧ bits (s.cfg (Reg.plLimit 0)) 19 16 ≠ 0 ∧ (∃ e ∈ b.miss, bits (s.cfg (Reg.plLimit 0)) 19 16 ≤ e.2) ∧
      (∀ x ∈ s.core.ctx, x.2.gap = none)) ∧
    (let s := planeIn { Plane.reset with errs := [0] } [(Reg.plLimit 0, 1)]; let b := (s.plane 0).beat;
      b.state = 0 ∧ bits (s.cfg (Reg.plLimit 0)) 19 16 = 0 ∧ bits (s.cfg (Reg.plLimit 0)) 15 0 ≠ 0 ∧
      bits (s.cfg (Reg.plLimit 0)) 15 0 ≤ (b.errs.filter (fun x => decide (s.now ≤ x + 256))).length) ∧
    (let s := planeIn Plane.reset [(Reg.plLimit 0, 0), (Reg.plCtl 0, 1)]; let b := (s.plane 0).beat;
      bits (s.cfg (Reg.plLimit 0)) 19 16 = 0 ∧ bits (s.cfg (Reg.plLimit 0)) 15 0 = 0 ∧ bit (s.cfg (Reg.plCtl 0)) 0 = true ∧ b.state ≠ 3) ∧
    bit (base.cfg (Reg.plCtl 0)) 0 = false := by
  refine ⟨by decide +kernel, by decide +kernel, by decide +kernel, by decide +kernel⟩

/-- A plane to leave the spray set, one to return, one whose test is over, clean and not. -/
theorem test_witness_plane_test :
    (let x : Plane := { Plane.reset with leave := true }; x.leave = true ∧ x.q = []) ∧
    (let s := planeIn { Plane.reset with state := 3 } [(Reg.plCtl 0, 2)]; bit (s.cfg (Reg.plCtl 0)) 1 = true ∧ (s.plane 0).state = 3 ∧
      (s.plane 0).leave = false) ∧
    (let s : State := { planeIn { Plane.reset with state := 2 } [] with alm := { base.alm with tick := 1024 } };
      (s.plane 0).state = 2 ∧ (s.plane 0).tested + 1024 ≤ s.now ∧ (s.plane 0).failed = false ∧ (s.plane 0).missed = 0) ∧
    ({ Plane.reset with state := 2, failed := true } : Plane).failed = true := by decide +kernel

/-! ### Copies -/

theorem queueTakes : QueueTakes portUp 0 0 1 :=
  ⟨by decide, by decide, by decide, by unfold OverLimit; decide, by decide, by decide⟩

/-- A multicast packet of an empty group and of a group of one. -/
def multicast (group : Word32) : State :=
  withRegs { portUp with tm := { Tm.reset with jobs := [⟨frame60, 4095, 0, 0⟩] } }
    [(Reg.replGroup 4095, group), (Reg.replEntry 0 1, 0x80000000)]

theorem test_witness_multicast :
    (multicast 0).flowing = true ∧ (multicast 0).tm.jobs = ⟨frame60, 4095, 0, 0⟩ :: [] ∧ frame60.bad = none ∧ frame60.orig = none ∧
    bits ((multicast 0).cfg (Reg.replGroup 4095)) 11 0 = 0 ∧ (multicast 1).tm.residue = [] ∧ (multicast 1).tm.mirTurn = false ∧ (multicast 1).tm.copies < 2048 ∧
    (multicast 1).tm.shared = [] ∧ bits ((multicast 1).cfg (Reg.replGroup 4095)) 11 0 = 1 ∧
    bit ((multicast 1).cfg (Reg.replEntry 0 1)) 31 = true ∧ bit ((multicast 1).cfg (Reg.replEntry 0 0)) 31 = false ∧
    bits ((multicast 1).cfg Reg.replCfg) 31 28 = 0 ∧ (multicast 1).sysPort 0 = .here 0 ∧ frame60.cells = 1 ∧
    ((multicast 1).pool 0).cache (frame60.slice / 2) = [4, 8, 12, 16] := by decide +kernel

/-- One copy in the residue: for a queue with room, for a full one, and past its time. -/
def residue (s : State) : State := { s with tm := { s.tm with residue := [⟨frame60, 0, 0, 0, 0⟩] } }

theorem test_witness_residue :
    (residue portUp).flowing = true ∧ (residue portUp).tm.retried = false ∧ (residue portUp).tm.residue = [⟨frame60, 0, 0, 0, 0⟩] ∧ (residue portUp).sysPort 0 = .here 0 ∧
    HasCells (residue portUp) 0 0 1 ∧ OverLimit (residue fullQueue) 0 0 1 ∧ (residue fullQueue).inService 0 = true ∧
    (let s := withReg (residue portUp) Reg.replCfg 0;
      s.tm.residue.find? (fun x => decide (x.born + bits (s.cfg Reg.replCfg) 19 0 ≤ s.now)) = some ⟨frame60, 0, 0, 0, 0⟩) ∧
    frame60.bufs = [] := by
  unfold HasCells OverLimit
  decide +kernel

/-- A mirror copy for L000 past the tick's limit, and within it. -/
def mirroring (n : Nat) : State :=
  withRegs { portUp with tm := { Tm.reset with
      mirJobs := [⟨31, frame60⟩]
      copies := n } }
    [(Reg.mirSession 31 0, 0x80000000), (Reg.mirSession 31 2, 1)]

theorem test_witness_mirror :
    (mirroring 2048).tm.mirJobs = ⟨31, frame60⟩ :: [] ∧ (mirroring 0).tm.jobs = [] ∧ bits ((mirroring 0).cfg (Reg.mirSession 31 0)) 27 18 = 0 ∧
    2048 ≤ (mirroring 2048).tm.copies ∧ (mirroring 2047).tm.copies < 2048 ∧ (mirroring 0).sysPort 0 = .here 0 ∧
    ((mirroring 0).queue 0).depth < bits ((mirroring 0).cfg (Reg.mirSession 31 2)) 19 0 ∧
    HasCells (mirroring 0) (bits ((mirroring 0).cfg (Reg.mirSession 31 1)) 15 12) 0 1 ∧ (mirroring 0).queueOf 0 0 = true ∧
    (mirroring 0).inService 0 = true ∧ ((mirroring 0).mirrorPkt 31 frame60).cells = 1 := by
  unfold HasCells
  decide +kernel

/-! ### Ethernet ports and fabric links -/

/-- L000 in a state, with its DOWN_HOLD. -/
def portIn (st : PortState) (hold : Word32) : State :=
  withReg { portUp with
    ports := [(0, { Port.reset with state := st })]
    dcp := { Dcp.reset with hp1 := { HostPort.reset with state := st } } } (Reg.octPortCfg 0 0) hold

/-- Each state of a network port, and of a host port, from which a line command goes on; a HOLD within its time, and at its end. -/
theorem test_witness_lines :
    (portUp.portNamed 0 = true ∧ (portIn .an 0).portSt 0 = .an ∧ (portIn .an 0).portSt 513 = .an ∧ (portIn .training 0).portSt 513 = .training ∧
      (portIn .training 0).portSt 0 = .training ∧ (portIn .training 0).portLoop 0 = 0 ∧ (portIn .aligning 0).portSt 0 = .aligning) ∧
    (let s := withReg (portIn .aligning 0) (Reg.octMode 0) 0x100; s.portSt 0 = .aligning ∧ 2 ≤ s.portWidth 0) ∧
    ((portIn .up 0).portSt 0 = .up ∧ (portIn .up 0).portSt 513 = .up ∧ (portIn .up 0).tm.residue = [] ∧
      bits ((portIn .up 0).cfg (Reg.octPortCfg 0 0)) 15 0 = 0 ∧ bits ((portIn .up 1).cfg (Reg.octPortCfg 0 0)) 15 0 ≠ 0) ∧
    ((portIn .hold 0).portSt 0 = .hold ∧ (portIn .hold 0).now ≤ ((portIn .hold 0).port 0).holdAt + 0 ∧
      ((portIn .hold 0).port 0).holdAt + bits ((portIn .hold 0).cfg (Reg.octPortCfg 0 0)) 15 0 ≤ (portIn .hold 0).now + 1 ∧
      (portIn .hold 2).now + 1 < ((portIn .hold 2).port 0).holdAt + bits ((portIn .hold 2).cfg (Reg.octPortCfg 0 0)) 15 0) := by decide

/-- L000 and HP1 enabled, in a state, with one due. -/
def portDue (st : PortState) (due : Option PortState) : State :=
  withRegs { portUp with
    ports := [(0, { Port.reset with
      state := st
      due := due })]
    dcp := { Dcp.reset with hp1 := { HostPort.reset with
      state := st
      due := due } } } [(Reg.octPortCfg 0 0, 0x80000000), (Reg.hpCfg 1, 0x80000000)]

/-- At the boundary: UP, HOLD and FAULT due, of a network and of a host port; a HOLD that has run out; a port that is not enabled; one
in DISABLED. -/
theorem test_witness_port_ticks :
    (MayTick (portDue .aligning (some .up)) (portDue .aligning (some .up)) 0 ∧ (portDue .aligning (some .up)).dueSt 0 = some .up) ∧
    (MayTick (portDue .aligning (some .up)) (portDue .aligning (some .up)) 513 ∧ (portDue .aligning (some .up)).dueSt 513 = some .up) ∧
    (portDue .up (some .hold)).dueSt 0 = some .hold ∧ (portDue .up (some .fault)).dueSt 0 = some .fault ∧
    (portDue .up none).rx = [] ∧ (portDue .up none).tm.residue = [] ∧
    ((portDue .hold none).dueSt 0 = none ∧ (portDue .hold none).portSt 0 = .hold ∧
      ((portDue .hold none).port 0).holdAt + bits ((portDue .hold none).cfg (Reg.octPortCfg 0 0)) 15 0 ≤ (portDue .hold none).now) ∧
    ((portIn .up 0).enabled 0 = false ∧ (portIn .up 0).portSt 0 ≠ .disabled) ∧
    ((portDue .disabled none).dueSt 0 = none ∧ (portDue .disabled none).portSt 0 = .disabled) ∧
    ((portDue .up (some .fault)).portSt 513 = .up ∧ (portDue .up (some .fault)).dueSt 513 = some .fault) := by
  unfold MayTick
  decide +kernel

/-- OCT_MODE written in RUNNING with an enabled port in the half that changes, and outside RUNNING. -/
theorem test_witness_oct_mode :
    (let s := withReg portUp (Reg.octPortCfg 0 0) 0x80000000;
      let old := s.reg (Reg.octMode 0);
      s.boot.phase = .running ∧ halfOf old 0 ≠ halfOf (0x200 : Word32) 0 ∧ modeWidth old 0 ≠ 0 ∧ 0 / 4 = 0 ∧
      bit (s.reg (Reg.octPortCfg 0 0)) 31 = true) ∧
    (inPhase .loaded).boot.phase ≠ .running := by decide

/-- An eye scan at its first point, at the end of a row, and at its end; the first octet that drives RCLK_A and the last that may drive RCLK_B. -/
theorem test_witness_octets :
    (∀ n ∈ [0, 63, 4095, 4096], (({ base with eyes := [(63, { Eye.reset with
      state := 1
      points := n })] } : State).eye 63).state = 1) ∧ (63 + 1) % 64 = 0 ∧ (0 + 1) % 64 ≠ 0 ∧
    (let s := withRegs base [(Reg.octRclk 0, 0x80), (Reg.octRclk 63, 0x8000)];
      bit (s.cfg (Reg.octRclk 0)) 7 = true ∧ bit (s.cfg (Reg.octRclk 63)) 15 = true ∧
      ∀ i, i < 63 → bit (s.cfg (Reg.octRclk i)) 15 = false) := by decide +kernel

/-- Lane 511 is a fabric lane, in a state. -/
def laneIn (x : Lane) : State :=
  withReg { portUp with fabric := { Fabric.reset with lanes := [(511, x)] } } (Reg.octMode 63) 0x4400

/-- A lane under training, aligning in either framing with and without 16 good frames, under test before and after 1,024 ticks, and
disabled gracefully. -/
theorem test_witness_lanes :
    ((laneIn { Lane.reset with state := .training }).isLane 511 = true ∧ (laneIn { Lane.reset with state := .training }).laneNamed 511 = true ∧
      ((laneIn { Lane.reset with state := .training }).lane 511).state = .training) ∧
    (let s := laneIn { Lane.reset with state := .aligning }; (s.lane 511).state = .aligning ∧ bit (s.cfg (Reg.fabCtl 3)) 0 = false ∧
      (s.lane 511).last16.length ≤ 16 ∧ (s.lane 511).last16 ≠ List.replicate 16 true ∧ bit ((withReg s (Reg.fabCtl 3) 1).cfg (Reg.fabCtl 3)) 0 = true) ∧
    (laneIn { Lane.reset with last16 := List.replicate 16 true }).lane 511 = { Lane.reset with last16 := List.replicate 16 true } ∧
    (16 ≤ ((laneIn { Lane.reset with commas := 16 }).lane 511).commas ∧ ((laneIn Lane.reset).lane 511).commas < 16) ∧
    (((laneIn { Lane.reset with state := .testing }).lane 511).testTicks < 1023 ∧
      ((laneIn { Lane.reset with state := .testing }).lane 511).due = none) ∧
    1023 ≤ ((laneIn { Lane.reset with testTicks := 1023 }).lane 511).testTicks ∧
    ((laneIn { Lane.reset with graceful := some 0 }).lane 511).graceful = some 0 ∧
    (laneIn Lane.reset).now < 0 + 15 := by decide +kernel

/-- A lane in service that its partner leaves idle, one with as many errors as its limit, and one with no cause. -/
theorem test_witness_lane_loss :
    (let s := laneIn { Lane.reset with
      state := .inService
      partReady := true
      idleTicks := 15 };
      s.isLane 511 = true ∧ (s.lane 511).state = .inService ∧ s.core.ctx = [] ∧ LaneSilent s 511 ∧ s.lossCause 511 s.now = 6) ∧
    (let s := withReg (laneIn { Lane.reset with
      state := .inService
      partReady := true
      passed := true
      errs := [0] }) (Reg.fabLoss 3) 1; ¬LaneSilent s 511 ∧ LaneErrs s 511 (s.now + 1) ∧ LaneErrs s 511 s.now) ∧
    (let s := withReg (laneIn { Lane.reset with state := .inService }) (Reg.fabLoss 3) 0;
      ¬LaneSilent s 511 ∧ ¬LaneErrs s 511 (s.now + 1) ∧ ¬LaneErrs s 511 s.now) := by
  unfold LaneSilent LaneErrs
  decide +kernel

/-- Lane 511 enabled, with what is due. -/
def laneDue (st : LaneState) (due : Option (LaneState × Nat)) : State :=
  withReg (laneIn { Lane.reset with
    state := st
    due := due }) (Reg.fabLaneCfg 3 127) 0x80000000

/-- At the boundary: each state that may be due; nothing due; a lane whose frame boundary slips, one to retrain, and one disabled in
service. -/
theorem test_witness_lane_ticks :
    LaneLeft (laneDue .aligning (some (.testing, 0))) 511 ∧ LaneLeft (laneDue .testing none) 511 ∧
    (∀ d ∈ [(LaneState.aligning, 0), (.testing, 0), (.inService, 0), (.training, 9), (.down, 8), (.down, 6)],
      ((laneDue .inService (some d)).lane 511).due = some d) ∧
    (let s := withRegs (laneDue .aligning none) [(Reg.fabCtl 3, 1), (Reg.fabLaneCtl 3 127, 1)]; let ctl := Reg.fabLaneCtl 3 127;
      s.slips 511 = true ∧ bit (s.cfg ctl) 0 = true ∧ bit (s.cfg ctl) 1 = false ∧ bit (s.cfg ctl) 2 = false ∧ s.laneEn 511 = true ∧
      (s.lane 511).graceful = none) ∧
    bit ((withReg (laneDue .down none) (Reg.fabLaneCtl 3 127) 4).cfg (Reg.fabLaneCtl 3 127)) 2 = true ∧
    ((laneIn { Lane.reset with state := .inService }).laneEn 511 = false ∧ (laneIn { Lane.reset with state := .inService }).isLane 511 = true) := by
  exact ⟨⟨by decide +kernel, by decide +kernel, by decide +kernel, by decide +kernel⟩,
    ⟨by decide +kernel, by decide +kernel, by decide +kernel, by decide +kernel⟩, by decide +kernel, by decide +kernel,
    by decide +kernel, by decide +kernel⟩

/-- A link frame of 840 bytes that carries nothing, with its check; and one too short. -/
def linkFrame : List Byte :=
  List.replicate 20 0 ++ beBytes 4 (crc32 polyC (List.replicate 20 0)).toNat ++ List.replicate 816 0

theorem test_witness_link_frame :
    linkFrame.length = 840 ∧ BitVec.ofNat 32 (beNat (slice0 linkFrame 20 4)) = crc32 polyC (linkFrame.take 20) ∧
    linkFrame.getD 6 0 = 0 ∧ linkFrame.getD 12 0 = 0 ∧ (linkFrame.getD 4 0).toNat < 32 ∧ base.core.spray ≠ 0 ∧ base.flowing = true := by
  decide +kernel

/-- A frame whose first place holds a cell of one byte for this device, with its HCRC. -/
def cellFrame : List Byte :=
  let h : List Byte := [0xC0, 0, 0, 1, 0, 0, 0, 0, 0, 0, 0, 0, 0, 0]
  let f : List Byte := [0, 0, 0, 0, 0x80] ++ List.replicate 15 0
  f ++ beBytes 4 (crc32 polyC f).toNat ++ h ++ beBytes 2 (crc16 h).toNat ++ List.replicate 800 0

theorem test_witness_link_cell : cellFrame.length = 840 ∧
    BitVec.ofNat 32 (beNat (slice0 cellFrame 20 4)) = crc32 polyC (cellFrame.take 20) ∧ bit (cellFrame.getD 4 0) 7 = true ∧
    (cellFrame.getD 4 0).toNat / 32 % 4 = 0 ∧
    (let c := slice0 cellFrame 24 272;
      BitVec.ofNat 16 (256 * (c.getD 14 0).toNat + (c.getD 15 0).toNat) = crc16 (c.take 14) ∧ c.getD 7 0 = 0 ∧
      (c.getD 6 0).toNat % 64 = base.devId) := by decide +kernel

/-- The line of lane 0 for a payload, with a parity of zeros. -/
def lineOf (payload : List Byte) : List Byte :=
  let code := (List.range 3).flatMap (fun c => bitsOf (slice0 payload (280 * c) 280) ++ List.replicate 160 false)
  bytesOfBits 1024 (commaWord ++ stuff 0 false (scramble (scramSeed 0) code) ++ List.replicate 1000 false)

/-- Its frame, all three codewords as received, and one that cannot be corrected. -/
theorem test_witness_line : (lineOf cellFrame).length = 1024 ∧ (bitsOf (lineOf cellFrame)).take 128 = commaWord := by decide +kernel

theorem test_line_payload : linePayload 0 (bitsOf (lineOf cellFrame)) [.clean, .clean, .clean] = some cellFrame := by decide +kernel

theorem test_line_bad : decodeWordC 0 (bitsOf (lineOf cellFrame)) [.clean, .bad] 1 = none := rfl

/-- A lane that takes messages; credit that moves on, that moves back, and that answers a reset; a lane of the spray set. -/
theorem test_witness_credit :
    (let s := laneIn { Lane.reset with
      state := .inService
      inSpray := true
      partFe := true
      ver := 4
      reach := 0x8000000000000000 };
      s.laneTalks 511 = true ∧ s.devId = 0 ∧ (s.srcCredit 0).wait = false ∧ (0x7FFF - (s.srcCredit 0).last : BitVec 16).toNat < 32768 ∧
      32768 ≤ (0x8000 - (s.srcCredit 0).last : BitVec 16).toNat ∧ (s.lane 511).partFe = true ∧ 4 ≤ (s.lane 511).ver ∧
      s.flowing = true ∧ s.usableTo 63 = [511]) ∧
    ((({ base with fabric := { Fabric.reset with src := [(0, ⟨0, 0, true⟩)] } } : State).srcCredit 0).wait = true) := by decide +kernel

/-! ### Algorithms, against published results -/

/-- CRC-32 and CRC-32C of "123456789" (their check values), and the HCRC polynomial's. -/
def digits : List Byte := [0x31, 0x32, 0x33, 0x34, 0x35, 0x36, 0x37, 0x38, 0x39]

theorem test_crc : crc32 polyEth digits = 0xCBF43926 ∧ crc32 polyC digits = 0xE3069283 ∧ crc16 digits = 0x29B1 := by decide +kernel

/-- FIPS 197, appendix C.1 and C.3: AES-128 and AES-256. -/
theorem test_aes :
    aesEnc (roundKeys (List.range 16)) ((List.range 16).map (fun i => 17 * i)) =
      bytesOfNat 16 0x69C4E0D86A7B0430D8CDB78070B4C55A ∧
    aesEnc (roundKeys (List.range 32)) ((List.range 16).map (fun i => 17 * i)) =
      bytesOfNat 16 0x8EA2B7CA516745BFEAFC49904B496089 := by decide +kernel

/-- GCM, test case 2 of its specification: one block of zeros under a zero key and IV. -/
theorem test_gcm :
    let ks := roundKeys (List.replicate 16 0)
    gctr ks (List.replicate 12 0) (List.replicate 16 0) = bytesOfNat 16 0x0388DACE60B6A392F328C2B971B2FE78 ∧
    gcmTag ks (List.replicate 12 0) [] (bytesOfNat 16 0x0388DACE60B6A392F328C2B971B2FE78) =
      bytesOfNat 16 0xAB6E47D42CEC13BDF53A67B21257BDDF := by decide +kernel

/-- RFC 3394, section 4.1: 128 bits of key data under a 128-bit key. -/
theorem test_key_wrap :
    kwWrap (List.range 16) ((List.range 16).map (fun i => 17 * i)) =
      bytesOfNat 24 0x1FA68B0A8112B447AEF34BD8FB5A7B829D3E862371D2CFE5 := by decide +kernel

/-! ### The cipher engine -/

/-- An integrity-only MACsec context, outbound (bit 27 clear) or inbound, and its written key slot 0. -/
def macCtx (inbound : Bool) : SaCtx := if inbound then 0x28000000 else 0x20000000

/-- The 14 bytes of a frame's addresses and type, sealed with PN 1 under a zero key, and the same with its last byte changed. -/
def sealedFrame : List Nat :=
  match macSeal (macCtx false) (List.replicate 16 0) (List.replicate 12 0 ++ [8, 0]) 1 with
  | .ok g => g
  | .bad _ => []

def spoiltFrame : List Nat := sealedFrame.take 37 ++ [(sealedFrame.getD 37 0 + 1) % 256]

/-- L000 decrypts on channel 0 with context 0, and holds a frame. -/
def held (cfg : Word32) (c : SaCtx) (key : Bool) (f : List Nat) : State :=
  let p := { pkt with data := bytesOf f }
  withReg { portUp with
    ports := [(0, { Port.reset with
      state := .up
      toCipher := [p] })]
    cipher := { Cipher.reset with
      ctx := [(0, c)]
      keys := if key then [(0, ⟨0, true⟩)] else [] } } (Reg.cipPortCfg 0 0) cfg

theorem held_frame (cfg : Word32) (c : SaCtx) (key : Bool) (f : List Nat) (h : (bytesOf f).length + 4 ≤ 16383) :
    HeldFrame (held cfg c key f) 0 { pkt with data := bytesOf f } [] :=
  { held := by simp [held, withReg, State.port, SMap.find]
    named := by decide
    ended := rfl
    good := rfl
    size := h
    pools := fun _ hb => absurd hb List.not_mem_nil }

/-- Every case of the receive statement: no SecTAG with and without UNTAG_PASS; a SecTAG of no enabled channel; a BYPASS context; a
context without a key; a bad ICV; a good frame, whose plaintext has a class. -/
theorem test_witness_macsec_rx :
    (beNat (slice0 (bytesOf (List.replicate 60 0)) 12 2) ≠ 0x88E5 ∧ bit ((held 0x80000001 0 true []).cfg (Reg.cipPortCfg 0 0)) 29 = false ∧
      bit ((held 0xA0000001 0 true []).cfg (Reg.cipPortCfg 0 0)) 29 = true) ∧
    (let f := bytesOf sealedFrame;
      f.length = 38 ∧ beNat (slice0 f 12 2) = 0x88E5 ∧ secTagOk f f.length = true ∧
      (held 0x80000000 0 true sealedFrame).rxChannel 0 f = none ∧ (held 0x80000001 0 true sealedFrame).rxChannel 0 f = some 0) ∧
    rxContext (held 0x80000001 0 true sealedFrame) 0 (bytesOf sealedFrame) 0 = 0 ∧ saMode 0 = 0 ∧ saMode (macCtx true) = 2 := by decide +kernel

theorem test_witness_macsec_icv :
    let s := held 0x80000001 (macCtx true) true sealedFrame;
    let c := macCtx true;
    let ks := roundKeys (keyBytes c (s.saKey c).val);
    rxRefused s c (bytesOf sealedFrame) 1 2 = none ∧ rxRefused (held 0x80000001 c false sealedFrame) c (bytesOf sealedFrame) 1 2 = some 0x13 ∧
    fullPn c (beNat (slice0 (bytesOf sealedFrame) 16 4)) = 1 ∧ secLen (bytesOf sealedFrame) 38 = 2 ∧ tagLen (bytesOf sealedFrame) = 8 ∧
    macGood c ks (natsOf (bytesOf sealedFrame)) 1 8 2 = true ∧ macGood c ks (natsOf (bytesOf spoiltFrame)) 1 8 2 = false ∧
    (s.parse 0 0 (bytesOf (macPlain c ks (natsOf (bytesOf sealedFrame)) 1 8 2))).cls = some 0 := by decide +kernel

/-- A cut-through frame that waits for its ICV: ended, good and bad. -/
theorem test_witness_icv_wait :
    (let w : IcvWait := ⟨7, 0, 0, macCtx true, 1, 0, bytesOf sealedFrame, 2, true⟩;
      let s : State := { partial' with cipher := { Cipher.reset with icv := [(7, w)] } };
      s.cipher.icv.find? (fun x => decide (x.2.port = 0) && x.2.ended) = some (w.pkt, w) ∧
      (s.slice 0).fifo.any (fun p => p.isOf w.pkt && !p.ended) = true ∧ s.core.transit = [] ∧ s.core.waitHand = [] ∧
      (secTagOk w.frame w.frame.length && macGood w.sa (roundKeys (keyBytes w.sa w.key)) (natsOf w.frame) w.pn (tagLen w.frame)
        (secLen w.frame w.frame.length)) = true ∧
      macGood w.sa (roundKeys (keyBytes w.sa w.key)) (natsOf (bytesOf spoiltFrame)) w.pn 8 2 = false) ∧
    HasCells partial' 0 0 1 := by
  unfold HasCells
  decide +kernel

/-- A packet at the cipher point of slice 0 under TX_SA 0. -/
def outbound (c : SaCtx) (key : Bool) : State :=
  withReg { portUp with
    slices := [(0, { Slice.reset with cip := [⟨frame60, false, false⟩] })]
    cipher := { Cipher.reset with
      ctx := [(0, c)]
      keys := if key then [(0, ⟨0, true⟩)] else [] } } (Reg.cipPortCfg 0 0) 0x10000000

theorem outbound_next : NextJob (outbound (macCtx false) true) 0 ⟨frame60, false, false⟩ [] ∧
    NextJob (outbound (macCtx false) false) 0 ⟨frame60, false, false⟩ [] :=
  ⟨{ first := by decide +kernel
     rest' := by decide +kernel
     good := rfl
     sends := Or.inr (by decide +kernel)
     none := by decide +kernel
     pools := fun _ hb => absurd hb List.not_mem_nil },
   { first := by decide +kernel
     rest' := by decide +kernel
     good := rfl
     sends := Or.inr (by decide +kernel)
     none := by decide +kernel
     pools := fun _ hb => absurd hb List.not_mem_nil }⟩

/-- A packet that is to be dropped, and one whose port sends nothing; a point with no job. -/
theorem test_witness_outbound_drop :
    (let j : CipJob := ⟨{ frame60 with bad := some 0x51 }, false, false⟩;
      let s : State := { outbound (macCtx false) true with slices := [(0, { Slice.reset with cip := [j] })] };
      s.nextCip 0 = some j ∧ s.core.waitHand = [] ∧ j.pkt.bad = some 0x51) ∧
    (let s : State := { outbound (macCtx false) true with ports := [] };
      s.nextCip 0 = some ⟨frame60, false, false⟩ ∧ s.sendsNone frame60.destPort = true) ∧ portUp.nextCip 0 = none := by decide +kernel

/-- The pass is a MACsec one; the context is STOPPED, is spent at its ceiling, has no key, and seals. -/
theorem test_witness_outbound :
    (outbound (macCtx false) true).nextPass 0 ⟨frame60, false, false⟩ = .mac 0 ∧ saIn (macCtx false) = false ∧
    bit (setBits (macCtx false) 31 31 1) 31 = true ∧ bit (macCtx false) 31 = false ∧
    (saCeil (setBits (setBits (macCtx false) 383 320 1) 319 256 2) ≠ 0 ∧
      saCeil (setBits (setBits (macCtx false) 383 320 1) 319 256 2) < outPn (setBits (setBits (macCtx false) 383 320 1) 319 256 2)) ∧
    saCeil (macCtx false) = 0 ∧ outPn (macCtx false) = 1 ∧
    ((outbound (macCtx false) false).saKey (macCtx false)).written = false ∧ ((outbound (macCtx false) true).saKey (macCtx false)).written = true ∧
    (match macSeal (macCtx false) (List.replicate 16 0) (natsOf frame60.data) 1 with
      | .ok g => g.length == 84
      | .bad _ => false) = true ∧
    macSeal 0x10000000 (List.replicate 16 0) (List.replicate 12 0) 1 = .bad 0x15 := by decide +kernel

/-- An ESP tunnel of IPv4 with the header at 14 and ESP at 34, integrity only: sealed with sequence number 1, and the place of each. -/
def espCtx (inbound : Bool) : SaCtx :=
  setBits (setBits (if inbound then 0x48000000 else 0x40000000) 63 59 1) 287 256 (if inbound then 1 else 0)

def espFrame : List Nat :=
  List.replicate 12 0 ++ [8, 0] ++ [0x45, 0, 0, 36, 0, 0, 0, 0, 64, 50] ++ List.replicate 10 0 ++ List.replicate 15 0 ++ [4]

def espSealed : List Nat :=
  match espSeal (espCtx false) (List.replicate 16 0) espFrame 34 14 1 with
  | .ok g => g
  | .bad _ => []

/-- A packet whose SA names context 0. -/
def espPkt (f : List Nat) : Pkt := { pkt with
  data := bytesOf f
  slip := slipSet (slipPut (slipPut 0 0x10 14) 0x11 34) 0x40 4 0x80000000 }

def espState (c : SaCtx) (f : List Nat) : State :=
  { outbound c true with slices := [(0, { Slice.reset with cip := [⟨espPkt f, false, false⟩] })] }

theorem test_witness_esp :
    (espState (espCtx false) espFrame).nextPass 0 ⟨espPkt espFrame, false, false⟩ = .esp 0 ∧ saIn (espCtx false) = false ∧
    (espPkt espFrame).hdrOff (saF (espCtx false) 1 31 27) = 34 ∧ (espPkt espFrame).hdrOff (saF (espCtx false) 1 26 22) = 14 ∧
    (espState (espCtx true) espSealed).nextPass 0 ⟨espPkt espSealed, false, false⟩ = .esp 0 ∧ saIn (espCtx true) = true ∧
    (espOpen (espCtx true) (some (List.replicate 16 0)) espSealed 34 14).2 = some 1 ∧
    espOpen (espCtx true) none espSealed 34 14 = (.bad 0x13, none) ∧
    espOpen (espCtx true) (some (List.replicate 16 1)) espSealed 34 14 = (.bad 0x10, none) := by decide +kernel

/-- Two contexts that agree, and a frame that is sealed. -/
theorem test_witness_seal : (List.replicate 16 0).length = 16 ∧ 12 ≤ (List.replicate 12 0 ++ [8, 0]).length ∧
    saMode (macCtx true) = saMode (macCtx false) ∧ saOff (macCtx true) = saOff (macCtx false) ∧
    macNonce (macCtx true) 1 = macNonce (macCtx false) 1 ∧
    macSeal (macCtx false) (List.replicate 16 0) (List.replicate 12 0 ++ [8, 0]) 1 = .ok sealedFrame := by decide +kernel

/-- CIP_SA_CMD idle and busy; records of each header: none, clear, wrapped under a KEK out of range, unwritten, and written. -/
def record (w0 w1 : Word32) (kek : Bool) : State :=
  withRegs { base with cipher := { Cipher.reset with keys := if kek then [(262144, ⟨0, true⟩)] else [] } }
    [(Reg.cipXfer 0 0, w0), (Reg.cipXfer 0 1, w1)]

theorem test_witness_import :
    Idle base 0 ∧ bit ((withReg base (Reg.cipSaCmd 0) 0x80000000).reg (Reg.cipSaCmd 0)) 31 = true ∧
    ((record 0 0 false).getXfer 0).getD 0 0 ≠ 0x53 ∧
    ((record 0x53010100 0x00C00000 false).getXfer 0).take 6 = [0x53, 1, 1, 0, 0, 0xC0] ∧
    ((record 0x53010204 0x00E80000 false).getXfer 0).take 6 = [0x53, 1, 2, 4, 0, 0xE8] ∧
    ((record 0x53010203 0x00E80000 false).keySlot (262144 + 3)).written = false ∧
    ((record 0x53010200 0x00E80000 true).keySlot 262144).written = true := by
  unfold Idle
  decide +kernel

/-! ### Results that the manual works out -/

/-- CSUMI: the manual's example of a TTL decrement (chapter 4): 0xB1E6 becomes 0xB2E6. -/
theorem test_csumi : csumUpdate 0xB1E6 0x4006 0x3F06 = 0xB2E6 := by decide

/-- The servo: the manual's example of chapter 12: P = 12,800 and I = 800 for an offset of 200 ns with KP = 26 and KI = 30, so that A = 13,600. -/
theorem test_servo : servoTerm (200 * 2 ^ 32) 26 = 12800 ∧ servoTerm (200 * 2 ^ 32) 30 = 800 ∧ 12800 + 800 = 13600 := by decide

/-- ADD of 2^64 - 1 and 1 wraps to 0 with C and Z and no V, and SUB of 0 and 1 borrows: Table 4.4. -/
theorem test_add_wraps :
    (match exec (.add t0 0 (.reg 2) (.simm 0xFFF) (.uimm 1)) (withThread ready) with
      | .next s => decide ((s.thread t0).z = true ∧ (s.thread t0).c = true ∧ (s.thread t0).v = false ∧ (s.thread t0).g[2] = 0 ∧ (s.thread t0).pc = 1)
      | _ => false) = true ∧
    (match exec (.sub t0 0 (.reg 2) (.uimm 0) (.uimm 1)) (withThread ready) with
      | .next s => decide ((s.thread t0).g[2] = 0xFFFFFFFFFFFFFFFF ∧ (s.thread t0).c = false ∧ (s.thread t0).n = true)
      | _ => false) = true := by decide

/-! ### The step, the queue and the stops -/

/-- The command at the front runs; an empty queue idles; the fixed names agree. -/
theorem test_step :
    (match step { withThread ready with pending := [.nop t0 0] } with
      | .next s => decide ((s.thread t0).issued = 1 ∧ s.pending = [])
      | _ => false) = true ∧
    (match Sys2Proof.core.step Sys2Proof.core.reset with
      | .next s => decide (s.pending = [])
      | _ => false) = true ∧ decodeTableWord 64 0x7FF0F000F000F000 = none := by decide

/-- The two refusals: a word that no store holds, and a private TAP instruction in test mode (R106, R424). -/
theorem test_refusals :
    (match exec (.add t0 0 .none .none .none) (withThread ready) with
      | .refused (.badWord n) => decide (n = 1)
      | _ => false) = true ∧
    (match exec (.tapInstruction 0x80) { base with boot := { base.boot with straps := 0 } } with
      | .refused (.privateTest n) => decide (n = 0x80)
      | _ => false) = true := by decide

theorem test_witness_refusals : ∃ (c : Instr) (x : Tid) (w : DWord) (s : State), c.dword = some (x, w) ∧ w.ok = false ∧ s.testMode = false :=
  ⟨.add t0 0 .none .none .none, _, _, base, rfl, by decide, by decide⟩

/-- Memory is in its form under reset, and before and after a step that keeps it. -/
theorem test_witness_memory : MemOk State.reset ∧ State.reset.pending = [] ∧ Memory.wf (memWrite [(4, 1)] 4 0) = true ∧
    Memory.wf [(4, 0)] = false ∧ Memory.wf [(4, 1), (4, 2)] = false := ⟨rfl, rfl, by decide, by decide, by decide⟩

/-! ### Time -/

/-- A domain under the servo: with nothing armed, with an offset below STEP_TH and with one at it; and without the servo. -/
def servoing (o : Option (BitVec 64)) : State :=
  withRegs { base with time := { Time.reset with ofs0 := o } } [(Reg.timeDServo 0, 0x80000001)]

theorem test_witness_time :
    base.boot.phase = .running ∧ base.boot.stop = none ∧ bit ((servoing none).cfg (Reg.timeDServo 0)) 31 = true ∧
    bit ((servoing none).cfg (Reg.timeDServo 1)) 31 = false ∧ (servoing none).domOfs 0 = none ∧
    (servoing (some 4294967296000)).domOfs 0 = some 4294967296000 ∧ Steps (servoing none) 0 4294967296000 ∧ ¬Steps (servoing none) 0 4294967295999 ∧
    ({ base.time with slew := true } : Time).slew = true ∧ base.wideHeld = [] := by
  unfold Steps
  decide

/-- A switch that is due, by JUMP and by SLEW; one that is not; a slew that ends in this tick. -/
theorem test_witness_switch :
    (let s := withReg base Reg.timeCtl 0x80000000; s.time.active < 2 ∧ bit (s.reg Reg.timeCtl) 31 = true ∧ s.time.slew = false ∧
      bit (s.reg Reg.timeCtl) 30 = false ∧ s.domOfs 0 = none ∧ s.domOfs 1 = none) ∧
    bit ((withReg base Reg.timeCtl 0xC0000000).reg Reg.timeCtl) 30 = true ∧ bit (base.reg Reg.timeCtl) 31 = false ∧
    (let s : State := { base with time := { Time.reset with slew := true } };
      s.time.slew = true ∧ s.time.r.natAbs ≤ s.tickEdges.toNat * (bits (s.cfg Reg.timeCtl) 3 0 * 27488)) := by decide

/-- An output pin that is high and falls in this tick, one that stays high, one whose ARM was written. -/
theorem test_witness_pin_ticks :
    (let s : State := { base with time := { Time.reset with high := [(3, 0)] } }; s.time.high = [(3, 0)] ∧ 0 ≤ tickSpan s) ∧
    (let s := withReg { base with time := { Time.reset with high := [(3, 2 ^ 60)] } } (Reg.evtPin 3 0) 0x18000000;
      tickSpan s < 2 ^ 60 ∧ bit (s.cfg (Reg.evtPin 3 0)) 27 = true) ∧
    3 ∈ ({ base with time := { Time.reset with arm := [3] } } : State).time.arm := by decide

/-- A pin that stamps both edges with a notice; one that is off; an output whose time has come, and one whose time has not. -/
theorem test_witness_pins :
    (let s := withReg base (Reg.evtPin 15 0) 0xC4000000; bit (s.cfg (Reg.evtPin 15 0)) 31 = true ∧ bits (s.cfg (Reg.evtPin 15 0)) 30 29 = 2 ∧
      bit (s.cfg (Reg.evtPin 15 0)) 26 = true ∧ s.dcp.notices.length < 1024) ∧
    bit (base.cfg (Reg.evtPin 0 0)) 31 = false ∧
    (let s := withRegs base [(Reg.evtPin 0 4, 8), (Reg.evtPin 0 5, 9)];
      8 ≤ bits (s.reg (Reg.evtPin 0 4)) 23 0 ∧ bits (s.reg (Reg.evtPin 0 4)) 23 0 < bits (s.reg (Reg.evtPin 0 5)) 30 0) ∧
    ¬8 ≤ bits (base.reg (Reg.evtPin 0 4)) 23 0 ∧
    (let s := withRegs { base with time := { Time.reset with pulse := [(3, 0)] } } [(Reg.evtPin 3 0, 0x10000000), (Reg.evtPin 3 5, 9)];
      s.time.pulse.find? (fun x => x.1 == 3) = some (3, 0) ∧ bit (s.cfg (Reg.evtPin 3 0)) 28 = true ∧ bits (s.cfg (Reg.evtPin 3 5)) 30 0 ≠ 0 ∧
      (nsOf (s.oAt 0) - 0).toNat < 2 ^ 31 ∧ 2 ^ 31 ≤ (nsOf (s.oAt 0) - 0x80000000).toNat) ∧
    (base.time.pulse.find? (fun x => x.1 == 3) = none) := by decide +kernel

/-! ### Counters, power and heat -/

/-- Region 1 is of kind CHRONICLE and holds one record at address 0; every memory port serves. -/
def chronicle (w : Word32) : State :=
  withRegs base ([(Reg.circRegionA 1, 0x60000000), (Reg.circRegionB 1, 64), (Reg.chrCfg, w)] ++ (List.range 24).map (fun g => (Reg.gdStatus g, 2)))

theorem test_witness_chronicle :
    (bits (0x1000000 : Word32) 28 24 ≠ bits (base.reg Reg.chrCfg) 28 24) ∧ ThresholdLegal 0x30000007 ∧ ¬ThresholdLegal 0x30000008 ∧
    (base.reg Reg.chrWrIdx - base.reg Reg.chrRdIdx).toNat < (1 - base.reg Reg.chrRdIdx : Word32).toNat ∧
    ¬(base.reg Reg.chrWrIdx - base.reg Reg.chrRdIdx).toNat < (0 - base.reg Reg.chrRdIdx : Word32).toNat ∧
    (let s := withRegs base [(Reg.chrThr 1023 0, 0x10000000), (Reg.chrThr 1023 1, 0xFFFFFFFF)];
      bits (s.cfg (Reg.chrThr 1023 0)) 31 28 ≠ 0 ∧ 1023 ∉ s.ctrs.thrClear ∧
        (s.occupancy (s.cfg (Reg.chrThr 1023 0))).isSome = true) := by
  unfold ThresholdLegal
  decide +kernel

theorem test_witness_snapshot :
    SnapshotDue (chronicle 0x01000001) ∧ ¬SnapshotDue base ∧ (chronicle 0x01000001).ctrs.snap = none ∧
    (∃ x : Snap, x.begun = false) ∧ (∃ x : Snap, x.begun = true) ∧
    (chronicle 0x01000001).stacksOk ((chronicle 0x01000001).recordAt 0x01000001 0) 4 = true ∧
    ¬(chronicle 0x01000001).chronRecords 0x01000001 ≤ 0 :=
  ⟨⟨by decide, by decide +kernel, by decide +kernel⟩, fun h => absurd h.period (by decide), rfl,
   ⟨⟨false, 0, 0, 0, 0, [], [], []⟩, rfl⟩, ⟨⟨true, 0, 0, 0, 0, [], [], []⟩, rfl⟩, by decide +kernel, by decide +kernel⟩

/-- All the places of a record can be reached. -/
theorem test_witness_record : (List.range 257).all (fun i => (chronicle 0x01000001).stacksOk
    ((chronicle 0x01000001).recordAt 0x01000001 0 + 16384 * i) 16384) = true := by decide +kernel

/-- The first VDD_CORE slot; a transition that raises or lowers and waits, for 625 ticks or for fewer. -/
theorem test_witness_sequencer :
    (let s := withReg base (Reg.powReg 7 0) 0x80000000; s.coreOn = true ∧ s.power.coreSlotSeen = false ∧ s.railSlots 0 = [7] ∧ s.boot.stop = none ∧
      (s.railSlots 0).filter (fun r => bit (0x80 : BitVec 8) r) = [7] ∧ (s.railSlots 0).filter (fun r => bit (0x7F : BitVec 8) r) = []) ∧
    (∀ b : Bool, ({ base.power with trans := some ⟨1, b, true, 625⟩ } : Power).trans = some ⟨1, b, true, 625⟩) ∧
    (0 : BitVec 32).toNat = 0 ∧ base.power.trans = none := by
  refine ⟨by decide, fun _ => rfl, by decide, rfl⟩

/-- POW_CTL in RUNNING with FIXED changed, and with nothing that it keeps changed. -/
theorem test_witness_pow_ctl :
    bit (0x80000000 : Word32) 31 ≠ bit (withReg base Reg.powCtl 0 |>.reg Reg.powCtl) 31 ∧
    bit (0x00000007 : Word32) 31 = bit (withReg base Reg.powCtl 0 |>.reg Reg.powCtl) 31 ∧
    bits (0x00000007 : Word32) 6 4 = bits (withReg base Reg.powCtl 0 |>.reg Reg.powCtl) 6 4 := by decide

/-- A rail above its limit at four polls, at both sides of a grant of 4; one at 15/16 of it; one below, at each count of windows. -/
theorem test_witness_rails :
    (let s := withReg { base with power := { base.power with rails := [(6, { RailLim.reset with
        sum := 5
        polls := 4 })] } } (Reg.powRail 6) 1;
      4 ≤ (s.rail 6).polls ∧ bits (s.cfg (Reg.powRail 6)) 15 0 = 1 ∧ 1 * (s.rail 6).polls < (s.rail 6).sum ∧ 4 < (s.rail 6).grant) ∧
    ({ RailLim.reset with grant := 4 } : RailLim).grant ≤ 4 ∧ 15 * 1 * 16 ≤ 16 * 15 ∧ 16 * 14 < 15 * 1 * 16 ∧ RailLim.reset.below < 15 ∧
    8 ≤ RailLim.reset.grant ∧ ¬RailLim.reset.ceil < 7 ∧ ({ RailLim.reset with ceil := 6 } : RailLim).ceil < 7 := by decide

/-- The cap limiter: no cap; above it with and without a point to lower to; within and below the hysteresis. -/
theorem test_witness_cap :
    bits ((withReg base Reg.powCap 0).cfg Reg.powCap) 15 0 = 0 ∧ base.coreOn = true ∧
    (let s := withRegs { base with power := { base.power with
        op := 7
        powerW := 2 } } [(Reg.powCap, 1), (Reg.powCtl, 0)]; bits (s.cfg Reg.powCap) 15 0 < s.power.powerW ∧ Lowerable s) ∧
    ¬Lowerable (withReg base Reg.powCtl 0) ∧
    (let s := withReg base Reg.powCap 0x10002; s.power.powerW + bits (s.cfg Reg.powCap) 31 16 < bits (s.cfg Reg.powCap) 15 0) ∧
    (let s := withReg base Reg.powCap 0x20002; bits (s.cfg Reg.powCap) 15 0 ≤ s.power.powerW + bits (s.cfg Reg.powCap) 31 16) := by
  unfold Lowerable
  decide

/-- A hottest sensor at the limit, and under it by the hysteresis; a second sample of 115 degrees. -/
theorem test_witness_heat :
    HottestIs (withRegs base ((List.range 22).map (fun j => (Reg.powTemp j, if j = 21 then 0x640 else 0)))) 1600 ∧
    (let s := withRegs base [(Reg.powTemp 0, 1840)]; bit (s.reg (Reg.powTemp 0)) 31 = false ∧ ((1840 : BitVec 16).toInt = 1840)) ∧
    (let s : State := { base with power := { base.power with hotDue := true } };
      s.power.hotDue = true ∧ 3 ≤ s.boot.phase.code ∧ s.boot.stop ≠ some .thermal ∧ s.boot.haltedBy ≠ some .thermal ∧ s.boot.phase ≠ .halted) := by
  unfold HottestIs
  refine ⟨⟨⟨21, by decide, by decide +kernel, by decide +kernel⟩, by decide +kernel⟩, by decide, by decide⟩

/-- The words of one cluster, and of none; a gate request of an octet that is not in use, at 63 and 64 ticks. -/
theorem test_witness_gating :
    ({ base with power := { base.power with words := [(31, 1)] } } : State).power.words = [(31, 1)] ∧ (base.power.words.map (fun x => x.2)).sum = 0 ∧
    base.power.gate = none ∧
    (let s := withReg { base with power := { base.power with gate := some (256 * 7 + 0x2F, 64) } } Reg.clkGateCmd 1;
      s.power.gate = some (256 * 7 + 0x2F, 64) ∧ bit (s.reg Reg.clkGateCmd) 0 = true ∧ s.gateable 7 0x2F = some true ∧
      (withReg s (Reg.octMode 63) 0x100).gateable 7 0x2F = some false ∧ bit ((withReg s Reg.clkGateCmd 0).reg Reg.clkGateCmd) 0 = false) := by decide

/-! ### Service life -/

/-- Every event of the table, one that is none; an entry that waits for its burn; node controllers that are up; a cell at each end. -/
theorem test_witness_vigil :
    (0x0040 : BitVec 16).toNat ∈ vigilTable ∧ (0x0041 : BitVec 16).toNat ∉ vigilTable ∧ base.coreOn = true ∧ base.dcp.notices.length < 1024 ∧
    base.vigil.log.length ≤ 255 ∧ base.boot.nodesReady = true ∧ State.reset.boot.nodesReady = false ∧ ¬1310720 ≤ 1310719 ∧
    ({ base.vigil with burning := [⟨0, 1, 0, 0⟩] } : Vigil).burning = ⟨0, 1, 0, 0⟩ :: [] ∧ base.vigil.burning = [] ∧
    TooMany (withReg base Reg.vigLimit 1) [] := by
  unfold TooMany
  decide

/-- SMBus before AON_UP and after it, with a sensor that reads and one that failed; the TAP in and out of test mode. -/
theorem test_witness_smbus_tap :
    State.reset.boot.inReset = true ∧ base.boot.inReset = false ∧ base.boot.phase ≠ .coldWait ∧
    bit ((withReg base (Reg.powTemp 21) 0x80000000).reg (Reg.powTemp 21)) 31 = true ∧ bit ((withReg base (Reg.powTemp 21) 0).reg (Reg.powTemp 21)) 31 = false ∧
    (0xFF : BitVec 8).toNat ∈ tapTable ∧ (0x80 : BitVec 8).toNat ∉ tapTable ∧ bit base.boot.straps 9 = true ∧ base.tm.residue = [] ∧
    bit ({ base.boot with straps := 0 } : Boot).straps 9 = false := by decide

end Sys2Proof.Tests
end

section
/-! PROOFS. The issue of a Dinum word as the statements speak of it (R61, R69, R106): a word that may issue moves its thread
on, and changes nothing else but what its effect does to that thread. -/

open Sys2Proof Sys2Proof.Machine Sys2Proof.Spec

namespace Sys2Proof.Spec

/-! ### Who may issue -/

/-- The conditions of a fetch are those that the model's issue tests. -/
theorem MayFetch.canIssue {s : State} {t : Tid} (h : MayFetch s t) : s.canIssue t = true := by
  obtain ⟨-, hruns, hpresent, hturn⟩ := h
  simp [State.canIssue, State.scribeHalted, hruns, hpresent, hturn]

/-- A word acts exactly where its nanoword is not gated or its predicate holds (R106). -/
theorem Acts.taken {i : Instr} {t : Tid} {w : DWord} {s : State} (h : Acts i t w s) :
    (ungated w.nw || predHolds (s.thread t) w.pred) = true := by
  obtain ⟨-, -, hnw⟩ := h
  simpa [ungated, or_assoc] using hnw

/-! ### What the issue notes -/

/-- The issue of a word puts its thread back and is noted; nothing else changes. -/
theorem onlyThread_issued (s : State) (t : Tid) (u : Thread) : OnlyThread s t ((s.noteIssue t).setThread t u) := by
  refine ⟨rfl, fun k hk => ?_, fun k => ?_, fun k => ?_⟩
  · rw [State.threadN_setThread_ne _ _ hk]; rfl
  · by_cases hk : k = t.cluster.val <;> simp [State.setThread, State.noteIssue, SMap.find_set, hk]
  · simp only [State.setThread, State.noteIssue, SMap.find_set]

/-- A word that may issue and acts on its thread alone answers a next state in which that thread is what the word makes of
it, and nothing else has changed. -/
theorem exec_acts {i : Instr} {t : Tid} {w : DWord} {s : State} {u : Thread} (hm : MayIssue s t) (ha : Acts i t w s)
    (hu : wordEffect i s (s.thread t).stepped = (s, u)) :
    ∃ s', exec i s = .next s' ∧ OnlyThread s t s' ∧ SameMem s s' ∧ s'.thread t = u := by
  refine ⟨(s.noteIssue t).setThread t u, ?_, onlyThread_issued s t u, fun _ => rfl, State.thread_setThread_same _ _ _⟩
  rw [exec_word ha.1, runWord_taken ha.2.1 hm.canIssue hm.budget hm.sound ha.taken, hu]

/-- A word that is gated false answers a next state in which its thread has moved on, and nothing else has changed. -/
theorem exec_skipped {i : Instr} {t : Tid} {w : DWord} {s : State} (hm : MayIssue s t) (hi : i.dword = some (t, w))
    (hok : w.ok = true) (hg : (ungated w.nw || predHolds (s.thread t) w.pred) = false) :
    ∃ s', exec i s = .next s' ∧ OnlyThread s t s' ∧ SameMem s s' ∧ s'.thread t = (s.thread t).stepped := by
  refine ⟨(s.noteIssue t).setThread t (s.thread t).stepped, ?_, onlyThread_issued s t _, fun _ => rfl,
    State.thread_setThread_same _ _ _⟩
  rw [exec_word hi, runWord_skipped hok hm.canIssue hm.budget hm.sound hg]

/-! ### Moving on -/

/-- Whether a thread has moved on is read off its counters and its loop. -/
theorem movesOn_of_stepped {th u : Thread} (hpc : u.pc = th.stepped.pc) (hi : u.issued = th.stepped.issued)
    (hl : u.loop = th.stepped.loop) : MovesOn th u := by
  refine ⟨by rw [hi, Thread.stepped_issued], ?_⟩
  rw [hpc, hl]
  unfold Thread.stepped
  cases th.loop with
  | none => exact ⟨rfl, rfl⟩
  | some l =>
    by_cases hend : th.pc + 1 = l.after
    · by_cases hleft : l.left = 0 <;> simp [hend, hleft]
    · simp [hend]

theorem movesOn_stepped (th : Thread) : MovesOn th th.stepped := movesOn_of_stepped rfl rfl rfl

theorem onlyMoved_stepped (th : Thread) : OnlyMoved th th.stepped := by
  unfold OnlyMoved Thread.stepped
  repeat' split
  all_goals rfl

end Sys2Proof.Spec

end

section
/-! PROOFS. Words gated false (R106), in the issue and in the loader's path count (R95). -/

open Sys2Proof Sys2Proof.Machine Sys2Proof.Spec

namespace Sys2Proof.Spec

/-- The nanoword tells which command a header word or a LOOP is. -/
theorem command_of_nw {i : Instr} {t : Tid} {w : DWord} (h : i.dword = some (t, w)) :
    (w.nw = 0x100 → ∃ a b c, i = .ldh t w.pred a b c) ∧ (w.nw = 0x101 → ∃ a b c, i = .sth t w.pred a b c) ∧
    (w.nw = 0x102 → ∃ a b, i = .insh t w.pred a b) ∧ (w.nw = 0x103 → ∃ a b, i = .delh t w.pred a b) ∧
    (w.nw = 0x104 → ∃ a, i = .align t w.pred a) ∧ (w.nw = 0x302 → ∃ count body, i = .loop t w.pred count body) := by
  cases i <;> simp only [Instr.dword, Option.some.injEq, Prod.mk.injEq, reduceCtorEq] at h <;>
    (obtain ⟨rfl, rfl⟩ := h; simp)

/-- LOOP gated false continues behind its body (R128). -/
theorem exec_loop_skipped {t : Tid} {p : BitVec 4} {count body : BitVec 12} {w : DWord} {s : State} (hm : MayIssue s t)
    (hi : (Instr.loop t p count body).dword = some (t, w)) (hok : w.ok = true) (hp : predHolds (s.thread t) p = false) :
    ∃ s', exec (.loop t p count body) s = .next s' ∧ OnlyThread s t s' ∧ SameMem s s' ∧
      s'.thread t = { (s.thread t).stepped with pc := (s.thread t).pc + 1 + body.toNat } := by
  have hnw : w.nw = 0x302 := by
    obtain rfl : _ = w := by simpa [Instr.dword] using hi
    rfl
  refine exec_acts hm ⟨hi, hok, .inr (.inr (.inl hnw))⟩ ?_
  have hp' : predHolds (s.thread t).stepped p = false := by
    rw [← hp]; simp [predHolds, predBit]
  simp [wordEffect, enterLoop, hp']

/-! ### The loader follows a gated word both ways (R95, R106) -/

theorem PathInfo.join_self (a : PathInfo) : a.join a = a := by simp [PathInfo.join]

/-- A word with a condition, other than a branch, counts itself and what it appends, and goes on behind itself. -/
theorem wordPath_gated {w : DWord} (rest : List PathInfo) (hp : w.pred ≠ 0) (hw : w.nw ∉ [0x300, 0x301, 0x302]) :
    (wordPath w rest).len = (pathAt rest 0).len + 1 ∧
    (wordPath w rest).commits = (pathAt rest 0).commits + (if commits w.nw.toNat = true then 1 else 0) ∧
    (wordPath w rest).falls = (pathAt rest 0).falls := by
  have hbr : ¬ (w.nw.toNat = 0x300 ∨ w.nw.toNat = 0x301) := by
    simp only [List.mem_cons, ← BitVec.toNat_inj] at hw
    rintro (h | h) <;> simp [h] at hw
  unfold wordPath
  rw [if_neg hbr]
  by_cases hr : retires w.nw.toNat = true
  · rw [if_pos hr, if_neg hp]
    simp [PathInfo.join, PathInfo.after, b2n]
  · simp [hr, PathInfo.after, b2n]

/-- A LOOP with a condition comes to what one without comes to, or to what stands behind its body. -/
theorem loopPath_gated {w : DWord} (ws : List DWord) (rest : List PathInfo) (hp : w.pred ≠ 0) :
    loopPath w ws rest = (loopPath { w with pred := 0 } ws rest).join ((pathAt rest (opDisp w.b)).after 1 0) := by
  unfold loopPath
  by_cases hn : opImm w.a = 0
  · simp only [if_pos hn, PathInfo.join_self]
  · simp only [if_neg hn, if_neg hp, if_true]

/-- A list that is not empty has a least number, so the condition is refused somewhere. -/
theorem lowestAt_of_mem {l : List Nat} {x : Nat} (st : Nat) (h : x ∈ l) : ∃ d, lowestAt st l = some (st, d) := by
  obtain ⟨d, hd⟩ := Option.isSome_iff_exists.1 (List.isSome_min?_of_mem h)
  exact ⟨d, by simp [lowestAt, hd]⟩

/-- An entry point whose paths fall off the end is refused. -/
theorem entry_falls_refused {ps : List PathInfo} {es : List Entry} {e : Entry} (he : e ∈ es)
    (hf : (pathAt ps e.start).falls = true) :
    ∃ d, lowestAt Nak.imageFalloff (entriesAt ps es (fun _ p => p.falls)) = some (Nak.imageFalloff, d) :=
  lowestAt_of_mem _ (List.mem_map.2 ⟨e, List.mem_filter.2 ⟨he, hf⟩, rfl⟩)

/-! ### Words that no store can hold -/

/-- The loader judges a word of the base set as the issue does (R94). -/
theorem wordOk_eq_ok {x : BitVec 64} {w : DWord} (h : decodeWord x = some w) (hw : w.nw.toNat < 0x800) :
    wordOk x = w.ok := by
  have hnw : w.nw = x.extractLsb' 52 12 := by
    unfold decodeWord at h
    split at h
    · obtain rfl := Option.some.inj h; rfl
    · cases h
  have hbits : bits x 63 52 = w.nw.toNat := by simp [hnw, bits]
  have hbase : ¬ 0x800 ≤ bits x 63 52 := by omega
  rw [wordOk, if_neg hbase, h]
  rfl

/-- BR carries no condition (R106). -/
theorem br_gated_not_ok {w : DWord} (hw : w.nw = 0x300) (hp : w.pred ≠ 0) : w.ok = false := by
  simp [DWord.ok, hw, show ¬ w.pred = 0#4 from hp]

end Sys2Proof.Spec

/-- Settles O5: a word gated false is skipped by the issue, a LOOP continues behind its body, and the loader's path count
follows a gated word both ways. -/
theorem gatedFalseWordOnlyMovesOn : Obligations.GatedFalseWordOnlyMovesOn := by
  refine ⟨?_, fun w rest hp hw => ?_, fun w ws rest hp => loopPath_gated ws rest hp,
    fun ps es e he hf => entry_falls_refused he hf, fun w x hx hw hp => ?_⟩
  · intro i t w s hm hi hok hsel hbrc hfalse
    by_cases hloop : w.nw = 0x302
    · obtain ⟨-, -, -, -, -, hcommand⟩ := command_of_nw hi
      obtain ⟨count, body, rfl⟩ := hcommand hloop
      obtain ⟨s', hx, hot, hmem, hth⟩ := exec_loop_skipped hm hi hok hfalse
      refine ⟨s', hx, hot, hmem, ?_, by rw [hth]; simp, fun h => absurd hloop h⟩
      rw [hth, OnlyMoved, onlyMoved_stepped]
    · have hg : (ungated w.nw || predHolds (s.thread t) w.pred) = false := by
        rw [ungated, hfalse, beq_false_of_ne hsel, beq_false_of_ne hbrc, beq_false_of_ne hloop]; rfl
      obtain ⟨s', hx, hot, hmem, hth⟩ := exec_skipped hm hi hok hg
      refine ⟨s', hx, hot, hmem, ?_⟩
      rw [hth]
      exact ⟨onlyMoved_stepped _, Thread.stepped_issued _, fun _ => movesOn_stepped _⟩
  · obtain ⟨hlen, hcommits, hfalls⟩ := wordPath_gated rest hp hw
    exact ⟨hlen, hcommits, hfalls, (wordPath_gated [] hp hw).2.2⟩
  · have hbad := br_gated_not_ok hw hp
    exact ⟨hbad, by rw [wordOk_eq_ok hx (by simp [hw]), hbad]⟩

end

section
/-! PROOFS. Reading and writing the places that operands name (R108 to R111): bytes of a list, of the header window and of
the call slip, and what a destination holds after a write. -/

open Sys2Proof Sys2Proof.Machine Sys2Proof.Spec

namespace Sys2Proof.Spec

/-! ### Bytes of numbers -/

/-- Byte i of the low n bytes of a number, least significant first. -/
theorem getD_leBytes {n v i : Nat} (h : i < n) : (leBytes n v).getD i 0 = BitVec.ofNat 8 (v / 256 ^ i) := by
  induction n generalizing v i with
  | zero => omega
  | succ n ih =>
    cases i with
    | zero => simp [leBytes]
    | succ i =>
      have hdiv : v / 256 / 256 ^ i = v / 256 ^ (i + 1) := by rw [Nat.div_div_eq_div_mul, Nat.pow_succ']
      rw [leBytes, List.getD_cons_succ, ih (by omega), hdiv]

/-- Byte i of the low n bytes of a number, most significant first. -/
theorem getD_beBytes {n v i : Nat} (h : i < n) : (beBytes n v).getD i 0 = BitVec.ofNat 8 (v / 256 ^ (n - 1 - i)) := by
  rw [beBytes, List.getD_eq_getElem?_getD, List.getElem?_reverse (by simpa using h), length_leBytes,
    ← List.getD_eq_getElem?_getD, getD_leBytes (by omega)]

theorem beNat_append_one (l : List Byte) (b : Byte) : beNat (l ++ [b]) = 256 * beNat l + b.toNat := by simp [beNat]

/-- The value of bytes as a sum over their places. -/
theorem beNat_map_range (f : Nat → Byte) (n : Nat) :
    beNat ((List.range n).map f) = ((List.range n).map (fun k => (f k).toNat * 256 ^ (n - 1 - k))).sum := by
  induction n with
  | zero => rfl
  | succ n ih =>
    have hscale : ∀ k ∈ List.range n, (f k).toNat * 256 ^ (n + 1 - 1 - k) = 256 * ((f k).toNat * 256 ^ (n - 1 - k)) := by
      intro k hk
      have hexp : n + 1 - 1 - k = (n - 1 - k) + 1 := by have := List.mem_range.1 hk; omega
      rw [hexp, Nat.pow_succ']
      ring
    rw [List.range_succ, List.map_append, List.map_append, List.sum_append, List.map_congr_left hscale,
      List.sum_map_mul_left, ← ih, List.map_singleton, beNat_append_one]
    simp

theorem beNat_lt (l : List Byte) : beNat l < 256 ^ l.length := by
  induction l using List.reverseRecOn with
  | nil => simp [beNat]
  | append_singleton l b ih =>
    rw [beNat_append_one, List.length_append, List.length_singleton, Nat.pow_succ]
    have := b.isLt
    omega

/-- A replaced range of a list, byte by byte. -/
theorem getD_putAt (l : List Byte) (o : Nat) (bs : List Byte) (k : Nat) :
    (putAt l o bs).getD k 0 =
      if o ≤ k ∧ k < o + bs.length ∧ k < l.length then bs.getD (k - o) 0 else l.getD k 0 := by
  simp only [putAt, List.getD_eq_getElem?_getD, List.getElem?_append, List.length_append, List.length_take,
    List.getElem?_take, List.getElem?_drop]
  by_cases hlen : k < l.length
  · by_cases hlow : k < o
    · rw [if_pos (by omega), if_pos (by omega), if_pos hlow, if_neg (by omega)]
    · by_cases hhigh : k < o + bs.length
      · rw [if_pos (by omega), if_neg (by omega), if_pos (by omega), if_pos (by omega)]
        congr 3
        omega
      · rw [if_neg (by omega), if_neg (by omega)]
        congr 2
        omega
  · have hend : l[k]? = none := List.getElem?_eq_none (by omega)
    rw [if_neg (by omega), if_neg (show ¬ (o ≤ k ∧ k < o + bs.length ∧ k < l.length) by omega), hend,
      List.getElem?_eq_none (by omega)]

/-! ### The header window -/

/-- A write of n bytes of a number to the window (R110). -/
theorem wroteWindow_winPut (th : Thread) (o n : Nat) (v : Word64) :
    WroteWindow th (winPut th o (beBytes n v.toNat)) o n v := by
  refine ⟨length_putAt _ _ _, fun k => ?_⟩
  show (putAt th.win o (beBytes n v.toNat)).getD k 0 = _
  rw [getD_putAt, length_beBytes]
  by_cases h : o ≤ k ∧ k < o + n ∧ k < th.win.length
  · have hplace : n - 1 - (k - o) = o + n - 1 - k := by omega
    rw [if_pos h, if_pos h, getD_beBytes (by omega), hplace]
  · rw [if_neg h, if_neg h]; rfl

/-- The window's bytes as the statements read them. -/
theorem winGet_eq_bigEndian (th : Thread) (o n : Nat) : winGet th o n = bigEndian (fun k => th.win.getD k 0) o n :=
  beNat_map_range _ n

theorem winGet_lt (th : Thread) (o n : Nat) : winGet th o n < 256 ^ n := by
  simpa [winGet] using beNat_lt ((List.range n).map (fun k => winByte th (o + k)))

/-! ### The call slip -/

theorem getLsbD_byteMask (j : Nat) : (0xFF : BitVec 1024).getLsbD j = decide (j < 8) := by
  rw [show (0xFF : BitVec 1024) = BitVec.ofNat 1024 (2 ^ 8 - 1) from rfl, BitVec.getLsbD_ofNat,
    Nat.testBit_two_pow_sub_one, ← Bool.decide_and]
  exact decide_eq_decide.2 (by omega)

/-- A bit of the call slip after a write of one byte. -/
theorem getLsbD_slipPut {slip : BitVec 1024} {o i : Nat} {b : Byte} (ho : o < 128) (hi : i < 1024) :
    (slipPut slip o b).getLsbD i = if 8 * o ≤ i ∧ i < 8 * o + 8 then b.getLsbD (i - 8 * o) else slip.getLsbD i := by
  rw [slipPut, if_pos ho]
  simp only [BitVec.getLsbD_or, BitVec.getLsbD_and, BitVec.getLsbD_not, BitVec.getLsbD_shiftLeft, getLsbD_byteMask,
    BitVec.getLsbD_setWidth, hi]
  by_cases hlow : i < 8 * o
  · simp [hlow]
  · by_cases hhigh : i < 8 * o + 8
    · simp [hlow, Nat.not_lt.1 hlow, hhigh, show i - 8 * o < 8 by omega, show i - 8 * o < 1024 by omega]
    · simp [hlow, hhigh, show ¬ i - 8 * o < 8 by omega, BitVec.getLsbD_of_ge b (i - 8 * o) (by omega)]

/-- A byte of the call slip after a write of one. -/
theorem slipByte_slipPut (slip : BitVec 1024) (o k : Nat) (b : Byte) :
    slipByte (slipPut slip o b) k = if k = o ∧ k < 128 then b else slipByte slip k := by
  by_cases hk : k < 128
  · by_cases ho : o < 128
    · ext i hi
      by_cases hko : k = o
      · subst hko
        simp [slipByte, hk, hi, getLsbD_slipPut hk (show 8 * k + i < 1024 by omega)]
      · have hin : ¬ (8 * o ≤ 8 * k + i ∧ 8 * k + i < 8 * o + 8) := by omega
        simp [slipByte, hk, getLsbD_slipPut ho (show 8 * k + i < 1024 by omega), hin, hko]
    · have hko : k ≠ o := by omega
      simp [slipPut, ho, hko]
  · simp [slipByte, hk]

/-- A byte of the call slip after a program's write of one, in the bits that it may write (R66). -/
theorem slipByte_slipWrite (egress : Bool) (slip : BitVec 1024) (o k : Nat) (b : Byte) :
    slipByte (slipWrite egress slip o b) k =
      if k = o ∧ k < 128 then (slipByte slip k &&& ~~~slipMask egress k) ||| (b &&& slipMask egress k)
      else slipByte slip k := by
  rw [slipWrite, slipByte_slipPut]
  by_cases h : k = o ∧ k < 128
  · obtain ⟨rfl, hk⟩ := h; rfl
  · rw [if_neg h, if_neg h]

/-- Every byte of the call slip after a program's write of several. -/
theorem slipByte_slipWriteN (egress : Bool) (slip : BitVec 1024) (o k : Nat) (bs : List Byte) :
    slipByte (slipWriteN egress slip o bs) k =
      if o ≤ k ∧ k < o + bs.length ∧ k < 128 then
        (slipByte slip k &&& ~~~slipMask egress k) ||| (bs.getD (k - o) 0 &&& slipMask egress k)
      else slipByte slip k := by
  induction bs generalizing slip o with
  | nil => rw [if_neg (by simp; omega)]; rfl
  | cons b bs ih =>
    rw [slipWriteN, ih, slipByte_slipWrite, List.length_cons]
    by_cases hk : k = o
    · subst hk
      rw [if_neg (by omega)]
      by_cases hlen : k < 128
      · rw [if_pos ⟨rfl, hlen⟩, if_pos (by omega), Nat.sub_self, List.getD_cons_zero]
      · rw [if_neg (by omega), if_neg (by omega)]
    · rw [if_neg (show ¬ (k = o ∧ k < 128) by omega)]
      by_cases hin : o + 1 ≤ k ∧ k < o + 1 + bs.length ∧ k < 128
      · have hidx : k - o = (k - (o + 1)) + 1 := by omega
        rw [if_pos hin, if_pos (by omega), hidx, List.getD_cons_succ]
      · rw [if_neg hin, if_neg (by omega)]

/-- A write of n bytes of a number to the call slip (R66, R109). -/
theorem wroteSlip_slipWriteN (th : Thread) (o n : Nat) (v : Word64) :
    WroteSlip th { th with slip := slipWriteN th.egress th.slip o (leBytes n v.toNat) } o n v := by
  intro k
  show slipByte (slipWriteN th.egress th.slip o (leBytes n v.toNat)) k = _
  rw [slipByte_slipWriteN, length_leBytes]
  by_cases h : o ≤ k ∧ k < o + n ∧ k < 128
  · rw [if_pos h, if_pos h, getD_leBytes (by omega)]
  · rw [if_neg h, if_neg h]

/-- An absent HDR_OFF entry, as a number and as a byte. -/
theorem hdrOff_eq_absent (th : Thread) (i : Nat) : hdrOff th i = 0xFF ↔ slipByte th.slip (0x10 + i) = 0xFF := by
  rw [hdrOff, ← BitVec.toNat_inj]; rfl

/-! ### Destinations -/

/-- A bit of a word after a write of one bit. -/
theorem bit_setBits_one {n : Nat} (x : BitVec n) (i k v : Nat) (hk : k < n) :
    bit (setBits x i i v) k = if k = i then v.testBit 0 else bit x k := by
  have hwidth : i + 1 - i = 1 := by omega
  simp only [bit, setBits, hwidth, BitVec.getLsbD_or, BitVec.getLsbD_and, BitVec.getLsbD_not, BitVec.getLsbD_ofNat,
    Nat.testBit_shiftLeft, Nat.testBit_two_pow_sub_one, Nat.testBit_mod_two_pow, hk]
  rcases Nat.lt_trichotomy k i with hlow | rfl | hhigh
  · simp [hlow.ne, Nat.not_le.2 hlow]
  · simp
  · simp [hhigh.ne', show ¬ k - i < 1 by omega]

/-- A destination takes the value written to it, narrowed to its width, and the other places keep theirs (R109). -/
theorem wrote_writeOp (th : Thread) (v : Word64) (a : Operand) : Wrote th (writeOp th v a) v a := by
  cases a with
  | reg n => exact ⟨fun k => by simp [writeOp, Vector.getElem_set, Fin.ext_iff, eq_comm], rfl, rfl, rfl⟩
  | pred i => exact ⟨fun k => by
      rw [writeOp, bit_setBits_one _ _ _ _ k.isLt, BitVec.testBit_toNat]
      simp [bit, Fin.ext_iff], rfl, rfl, rfl⟩
  | hdrAbs off w => exact ⟨wroteWindow_winPut _ _ _ _, rfl, rfl, rfl⟩
  | hdrRel i d wc =>
    by_cases h : hdrOff th i.toNat = 0xFF
    · have h' := (hdrOff_eq_absent th i.toNat).1 h
      simp [Wrote, writeOp, h, h']
    · have h' := mt (hdrOff_eq_absent th i.toNat).2 h
      simp only [Wrote, writeOp, if_neg h, if_neg h']
      exact ⟨wroteWindow_winPut _ _ _ _, rfl, rfl, rfl⟩
  | slip off w => exact ⟨wroteSlip_slipWriteN _ _ _ _, rfl, rfl, rfl⟩
  | _ => exact ⟨rfl, rfl, rfl, rfl⟩

theorem wroteWindow_stepped {th u : Thread} {o n : Nat} {v : Word64} (h : WroteWindow th.stepped u o n v) :
    WroteWindow th u o n v := by
  simpa [WroteWindow, winByte] using h

/-- What a destination took does not depend on the program counter. -/
theorem wrote_stepped {th u : Thread} {v : Word64} {a : Operand} (h : Wrote th.stepped u v a) : Wrote th u v a := by
  cases a <;> simpa [Wrote, WroteWindow, WroteSlip, winByte] using h

/-- Of a thread, at most the four places of R109 have changed. -/
def OnlyPlaces (th u : Thread) : Prop := u = { th with g := u.g, t := u.t, win := u.win, slip := u.slip }

theorem onlyPlaces_refl (th : Thread) : OnlyPlaces th th := rfl

theorem onlyPlaces_winPut (th : Thread) (o : Nat) (bs : List Byte) : OnlyPlaces th (winPut th o bs) := rfl

theorem onlyPlaces_writeOp (th : Thread) (v : Word64) (a : Operand) : OnlyPlaces th (writeOp th v a) := by
  cases a with
  | hdrRel i d wc =>
    simp only [writeOp]
    split
    · exact onlyPlaces_refl th
    · exact onlyPlaces_winPut _ _ _
  | _ => rfl

/-- A word that changes at most these places has moved its thread on and changed no flag. -/
theorem moved_of_onlyPlaces {th u : Thread} (h : OnlyPlaces th.stepped u) :
    MovesOn th u ∧ OnlyResult th u ∧ Flags th u none none none none := by
  refine ⟨?_, ?_, ?_⟩
  · rw [h]
    exact movesOn_of_stepped rfl rfl rfl
  · rw [OnlyResult, h, onlyMoved_stepped]
  · rw [h]
    exact ⟨th.stepped_z, th.stepped_c, th.stepped_n, th.stepped_v⟩

end Sys2Proof.Spec
end

section
/-! PROOFS. HASH (R115): the bits of a register sequence and of the Toeplitz sum, and the immediates that no store can hold. -/

open Sys2Proof Sys2Proof.Machine Sys2Proof.Spec

namespace Sys2Proof.Spec

/-! ### Register sequences (R111) -/

theorem seqReg_eq (th : Thread) (n : Fin 32) (k : Nat) : seqReg th n k = th.g[(n + Fin.ofNat 32 k : Fin 32)] := by
  have hplace : Fin.ofNat 32 (n.val + k) = n + Fin.ofNat 32 k := by ext; simp [Fin.add_def]
  simp only [seqReg, hplace]

theorem seqNat_succ (th : Thread) (n : Fin 32) (m : Nat) :
    seqNat th n (m + 1) = 2 ^ 64 * seqNat th n m + (seqReg th n m).toNat := by
  simp only [seqNat, List.range_succ, List.foldl_append, List.foldl_cons, List.foldl_nil, Nat.mul_comm]

/-- The bits of a sequence, counted from the most significant one of its first register. -/
theorem testBit_seqNat (th : Thread) (n : Fin 32) (m : Nat) {q : Nat} (hq : q < 64 * m) :
    (seqNat th n m).testBit (64 * m - 1 - q) = bit (seqReg th n (q / 64)) (63 - q % 64) := by
  induction m with
  | zero => omega
  | succ m ih =>
    rw [seqNat_succ, Nat.testBit_two_pow_mul_add _ (seqReg th n m).isLt]
    by_cases hfirst : q < 64 * m
    · have hrest : 64 * (m + 1) - 1 - q - 64 = 64 * m - 1 - q := by omega
      rw [if_neg (by omega), hrest, ih hfirst]
    · have hreg : q / 64 = m := by omega
      have hplace : 64 * (m + 1) - 1 - q = 63 - q % 64 := by omega
      rw [if_pos (by omega), hreg, hplace, BitVec.testBit_toNat, bit]

/-- A byte of a sequence, as a quotient of its register. -/
theorem seqByte_eq (th : Thread) (n : Fin 32) (k : Nat) :
    seqByte th n k = BitVec.ofNat 8 (th.g[(n + Fin.ofNat 32 (k / 8) : Fin 32)].toNat / 256 ^ (7 - k % 8)) := by
  rw [seqByte, seqReg_eq, BitVec.extractLsb', Nat.shiftRight_eq_div_pow, Nat.pow_mul]

/-! ### Toeplitz -/

/-- A bit of an exclusive OR of chosen words is the parity of those that have it set. -/
theorem bit_foldl_xor (p : Nat → Bool) (x : Nat → Word32) (j : Nat) (l : List Nat) (a : Word32) :
    bit (l.foldl (fun acc i => if p i then acc ^^^ x i else acc) a) j =
      (bit a j ^^ decide (l.countP (fun i => p i && bit (x i) j) % 2 = 1)) := by
  induction l generalizing a with
  | nil => simp
  | cons i l ih =>
    rw [List.foldl_cons, ih, List.countP_cons]
    by_cases hp : p i = true
    · by_cases hx : bit (x i) j = true
      · have hparity : decide ((l.countP (fun i => p i && bit (x i) j) + 1) % 2 = 1) =
            !decide (l.countP (fun i => p i && bit (x i) j) % 2 = 1) := by
          rw [← decide_not]; exact decide_eq_decide.2 (by omega)
        have hbit : bit (a ^^^ x i) j = !bit a j := by simp_all [bit]
        simp only [hp, hx, if_true, Bool.and_self, hparity, hbit, Bool.not_xor, Bool.xor_not]
      · have hbit : bit (a ^^^ x i) j = bit a j := by simp_all [bit]
        simp [hp, hx, hbit]
    · simp [hp]

/-- Bit j, from the left, of the Toeplitz sum of a sequence's bytes under the key of another (R115). -/
theorem bit_toeplitz (th : Thread) (k : Fin 32) (input : List Byte) (hlen : input.length ≤ 36) {j : Nat} (hj : j < 32) :
    bit (toeplitz (BitVec.ofNat 320 (seqNat th k 5)) input) (31 - j) =
      decide ((List.range (8 * input.length)).countP (fun i => bit (input.getD (i / 8) 0) (7 - i % 8) &&
        bit (seqReg th k ((i + j) / 64)) (63 - (i + j) % 64)) % 2 = 1) := by
  have hkey : ∀ i ∈ List.range (8 * input.length),
      bit ((BitVec.ofNat 320 (seqNat th k 5)).extractLsb' (288 - i) 32) (31 - j) =
        bit (seqReg th k ((i + j) / 64)) (63 - (i + j) % 64) := by
    intro i hi
    have hi' := List.mem_range.1 hi
    have hplace : 288 - i + (31 - j) = 64 * 5 - 1 - (i + j) := by omega
    rw [← testBit_seqNat th k 5 (show i + j < 64 * 5 by omega), bit, BitVec.getLsbD_extractLsb', hplace,
      BitVec.getLsbD_ofNat]
    simp [show 31 - j < 32 by omega, show 319 - (i + j) < 320 by omega]
  have hcount := List.countP_congr (l := List.range (8 * input.length))
    (p := fun i => bit (input.getD (i / 8) 0) (7 - i % 8) &&
      bit ((BitVec.ofNat 320 (seqNat th k 5)).extractLsb' (288 - i) 32) (31 - j))
    (q := fun i => bit (input.getD (i / 8) 0) (7 - i % 8) && bit (seqReg th k ((i + j) / 64)) (63 - (i + j) % 64))
    (fun i hi => by simp only [hkey i hi])
  rw [toeplitz, bit_foldl_xor, hcount]
  simp [bit]

/-! ### The word -/

/-- The check value that R115 gives for CRC-32C. -/
theorem crc32c_check : (crc32 polyC [0x31, 0x32, 0x33, 0x34, 0x35, 0x36, 0x37, 0x38, 0x39]).toNat = 0xE3069283 := by
  decide +kernel

theorem toNat_extend (r : Word32) : (r.zeroExtend 64).toNat = r.toNat := BitVec.toNat_setWidth_of_le (by decide)

theorem bit_extend (r : Word32) (j : Nat) : bit (r.zeroExtend 64) (31 - j) = bit r (31 - j) := by
  simp [bit, show 31 - j < 64 by omega]

/-- The 32-bit result of a HASH of at least one byte. -/
def hashResult (th : Thread) (n : Fin 32) (c : BitVec 12) : Word32 :=
  let input := seqBytes th n (bits c 5 0)
  if bit c 11 then toeplitz (BitVec.ofNat 320 (seqNat th (Fin.ofNat 32 (bits c 10 6)) 5)) input
  else crc32 polyC input

theorem aluHash_eq (a : Operand) (n : Fin 32) (c : BitVec 12) (th : Thread) :
    aluHash a n c th = if bits c 5 0 = 0 then th else writeOp th ((hashResult th n c).zeroExtend 64) a := by
  unfold aluHash hashResult
  by_cases hc : bit c 11 = true <;> simp [hc]

@[simp] theorem seqReg_stepped (th : Thread) (n : Fin 32) (k : Nat) : seqReg th.stepped n k = seqReg th n k := by
  simp [seqReg]

@[simp] theorem seqNat_stepped (th : Thread) (n : Fin 32) (m : Nat) : seqNat th.stepped n m = seqNat th n m := by
  simp only [seqNat, seqReg_stepped]

@[simp] theorem seqBytes_stepped (th : Thread) (n : Fin 32) (m : Nat) : seqBytes th.stepped n m = seqBytes th n m := by
  simp only [seqBytes, seqByte, seqReg_stepped, List.map_inj_left, implies_true]

@[simp] theorem hashResult_stepped (th : Thread) (n : Fin 32) (c : BitVec 12) :
    hashResult th.stepped n c = hashResult th n c := by
  simp only [hashResult, seqBytes_stepped, seqNat_stepped]

/-- The fields of the immediate C. -/
theorem hashFields (c : BitVec 12) :
    bits c 5 0 = c.toNat % 64 ∧ bits c 10 6 = c.toNat / 64 % 32 ∧ (bit c 11 = true ↔ c.toNat / 2048 = 1) := by
  have hc := c.isLt
  refine ⟨by simp [bits], by simp [bits, Nat.shiftRight_eq_div_pow], ?_⟩
  rw [bit, ← BitVec.testBit_toNat, Nat.testBit_eq_decide_div_mod_eq]
  simp only [decide_eq_true_eq]
  omega

/-- A Toeplitz length above 36 and a key register of a CRC-32C are refused (R115). -/
theorem hashImmOk_eq_false {v : Nat} (h : (v / 2048 = 1 ∧ 36 < v % 64) ∨ (v / 2048 = 0 ∧ v / 64 % 32 ≠ 0)) :
    hashImmOk v = false := by
  unfold hashImmOk
  rcases h with ⟨halg, hlen⟩ | ⟨halg, hkey⟩
  · simp [halg, hlen]
  · simp [halg, hkey]

theorem hash_not_ok {p : BitVec 4} {a : Operand} {n : Fin 32} {c : BitVec 12} (h : hashImmOk c.toNat = false) :
    (⟨0x012, p, a, .reg n, .uimm c⟩ : DWord).ok = false := by
  simp [DWord.ok, Operand.isImm, h]

/-- A Toeplitz word that a store can hold has at most 36 bytes. -/
theorem toeplitz_len_le {p : BitVec 4} {a : Operand} {n : Fin 32} {c : BitVec 12}
    (hok : (⟨0x012, p, a, .reg n, .uimm c⟩ : DWord).ok = true) (halg : c.toNat / 2048 = 1) : c.toNat % 64 ≤ 36 := by
  by_contra hlen
  rw [hash_not_ok (hashImmOk_eq_false (.inl ⟨halg, by omega⟩))] at hok
  cases hok

/-- HASH by CRC-32C. -/
theorem hashResult_crc {th : Thread} {n : Fin 32} {c : BitVec 12} (halg : c.toNat / 2048 = 0) :
    hashResult th n c = crc32 polyC (seqBytes th n (c.toNat % 64)) := by
  obtain ⟨hlen, -, hc⟩ := hashFields c
  have hcrc : ¬ bit c 11 = true := by rw [hc]; omega
  simp only [hashResult, hlen, if_neg hcrc]

/-- HASH by Toeplitz, bit by bit. -/
theorem bit_hashResult_toeplitz {th : Thread} {n : Fin 32} {c : BitVec 12} (halg : c.toNat / 2048 = 1)
    (hle : c.toNat % 64 ≤ 36) {j : Nat} (hj : j < 32) :
    bit (hashResult th n c) (31 - j) =
      decide ((List.range (8 * (c.toNat % 64))).countP (fun i => bit (seqByte th n (i / 8)) (7 - i % 8) &&
        bit (seqReg th (Fin.ofNat 32 (c.toNat / 64 % 32)) ((i + j) / 64)) (63 - (i + j) % 64)) % 2 = 1) := by
  obtain ⟨hlen, hkey, hc⟩ := hashFields c
  have hinput : (seqBytes th n (c.toNat % 64)).length = c.toNat % 64 := by simp [seqBytes]
  simp only [hashResult, hlen, hkey, if_pos (hc.2 halg)]
  rw [bit_toeplitz th _ _ (by omega) hj, hinput]
  refine congrArg (fun m => decide (m % 2 = 1)) (List.countP_congr fun i hi => ?_)
  have hbyte : (seqBytes th n (c.toNat % 64)).getD (i / 8) 0 = seqByte th n (i / 8) := by
    have hi' := List.mem_range.1 hi
    simp [seqBytes, List.getD_eq_getElem?_getD, show i / 8 < c.toNat % 64 by omega]
  rw [hbyte]

end Sys2Proof.Spec

/-- Settles O7: HASH writes the CRC-32C or the Toeplitz sum of the sequence's bytes, and nothing where the length is 0. -/
theorem hashFollowsAlgorithms : Obligations.HashFollowsAlgorithms := by
  refine ⟨crc32c_check, fun p a n c hbad => ?_, fun t p a n c s hm ha => ?_⟩
  · have hok := hash_not_ok (p := p) (a := a) (n := n) (hashImmOk_eq_false hbad)
    exact ⟨hok, fun x hx => by rw [wordOk_eq_ok hx (by decide : (0x012 : BitVec 12).toNat < 0x800), hok]⟩
  · obtain ⟨s', hx, hot, hmem, hth⟩ := exec_acts hm ha rfl
    refine ⟨s', hx, hot, hmem, ?_⟩
    rw [hth, aluHash_eq, (hashFields c).1, hashResult_stepped]
    by_cases hlen : c.toNat % 64 = 0
    · rw [if_pos hlen]
      obtain ⟨hmoved, honly, hflags⟩ := moved_of_onlyPlaces (onlyPlaces_refl (s.thread t).stepped)
      exact ⟨hmoved, honly, hflags, fun _ => onlyMoved_stepped _, fun h => absurd hlen h⟩
    · rw [if_neg hlen]
      obtain ⟨hmoved, honly, hflags⟩ := moved_of_onlyPlaces
        (onlyPlaces_writeOp (s.thread t).stepped ((hashResult (s.thread t) n c).zeroExtend 64) a)
      refine ⟨hmoved, honly, hflags, fun h => absurd h hlen, fun _ =>
        ⟨_, wrote_stepped (wrote_writeOp _ _ _), ?_, fun halg => ?_, fun halg j hj => ?_⟩⟩
      · rw [toNat_extend]
        exact (hashResult (s.thread t) n c).isLt
      · rw [toNat_extend, hashResult_crc halg, seqBytes, List.map_congr_left fun k _ => seqByte_eq (s.thread t) n k]
      · rw [bit_extend, bit_hashResult_toeplitz halg (toeplitz_len_le ha.2.1 halg) hj]
        simp only [seqByte_eq, seqReg_eq]

end

section
/-! PROOFS. Header words (R117 to R119): bytes moved between the window, the tail and a destination, and the HDR_OFF entries
that follow them. -/

open Sys2Proof Sys2Proof.Machine Sys2Proof.Spec

namespace Sys2Proof.Spec

/-! ### HDR_OFF entries (R119) -/

/-- The call slip after the first m HDR_OFF entries have been replaced. -/
def mapHdrOffN (f : Nat → Nat) (m : Nat) (slip : BitVec 1024) : BitVec 1024 :=
  (List.range m).foldl (fun sl i =>
    let e := (slipByte sl (0x10 + i)).toNat
    if e = 0xFF then sl else slipPut sl (0x10 + i) (BitVec.ofNat 8 (f e))) slip

theorem mapHdrOff_eq (f : Nat → Nat) (slip : BitVec 1024) : mapHdrOff f slip = mapHdrOffN f 32 slip := rfl

theorem mapHdrOffN_succ (f : Nat → Nat) (m : Nat) (slip : BitVec 1024) :
    mapHdrOffN f (m + 1) slip =
      if slipByte (mapHdrOffN f m slip) (0x10 + m) = 0xFF then mapHdrOffN f m slip
      else slipPut (mapHdrOffN f m slip) (0x10 + m)
        (BitVec.ofNat 8 (f (slipByte (mapHdrOffN f m slip) (0x10 + m)).toNat)) := by
  rw [mapHdrOffN, List.range_succ, List.foldl_append]
  simp only [List.foldl_cons, List.foldl_nil, ← BitVec.toNat_inj]
  rfl

/-- The bytes of the call slip after the first m entries have been replaced. -/
theorem slipByte_mapHdrOffN (f : Nat → Nat) (slip : BitVec 1024) (k : Nat) {m : Nat} (hm : m ≤ 32) :
    slipByte (mapHdrOffN f m slip) k =
      if 0x10 ≤ k ∧ k < 0x10 + m ∧ slipByte slip k ≠ 0xFF then BitVec.ofNat 8 (f (slipByte slip k).toNat)
      else slipByte slip k := by
  induction m with
  | zero => rw [if_neg (by omega)]; rfl
  | succ m ih =>
    have ih := ih (by omega)
    rw [mapHdrOffN_succ]
    by_cases hk : k = 0x10 + m
    · subst hk
      have hold : slipByte (mapHdrOffN f m slip) (0x10 + m) = slipByte slip (0x10 + m) := by rw [ih, if_neg (by omega)]
      by_cases he : slipByte slip (0x10 + m) = 0xFF
      · rw [hold, if_pos he, hold, if_neg (fun h => h.2.2 he)]
      · rw [hold, if_neg he, slipByte_slipPut, if_pos (by omega), if_pos ⟨by omega, by omega, he⟩]
    · have hrange : (0x10 ≤ k ∧ k < 0x10 + (m + 1) ∧ slipByte slip k ≠ 0xFF) ↔
          (0x10 ≤ k ∧ k < 0x10 + m ∧ slipByte slip k ≠ 0xFF) := by
        constructor <;> rintro ⟨hlow, hhigh, he⟩ <;> exact ⟨hlow, by omega, he⟩
      simp only [hrange, ← ih]
      split
      · rfl
      · rw [slipByte_slipPut, if_neg (fun h => hk h.1)]

/-- Where the new entries fit in a byte, every entry follows and no other byte of the call slip changes. -/
theorem offsets_mapHdrOff {th u : Thread} {f : Nat → Nat} (hf : ∀ e < 256, f e < 256)
    (hu : u.slip = mapHdrOff f th.slip) : Offsets th u f := by
  intro k
  rw [hu, mapHdrOff_eq, slipByte_mapHdrOffN f th.slip k (le_refl 32)]
  by_cases h : 0x10 ≤ k ∧ k < 0x30 ∧ slipByte th.slip k ≠ 0xFF
  · rw [if_pos h, if_pos h, BitVec.toNat_ofNat, Nat.mod_eq_of_lt (hf _ (slipByte th.slip k).isLt)]
  · rw [if_neg h, if_neg h]

/-! ### Insertion and deletion (R118) -/

/-- Zero bytes inserted: what leaves the window begins the tail, and the entries follow. -/
theorem inserted_insertBytes (th : Thread) (o : Nat) {n : Nat} (hn : n ≠ 0) :
    Inserted th (th.insertBytes o (List.replicate n 0)) (min o th.win.length) n := by
  simp only [Inserted, Thread.insertBytes, List.length_replicate, if_neg hn, frameBytes]
  refine ⟨?_, ?_, offsets_mapHdrOff (fun e he => ?_) rfl⟩
  · rw [← List.append_assoc, List.take_append_drop]
  · simp only [List.length_take, List.length_append, List.length_replicate, List.length_drop]
    omega
  · split
    · exact he
    · split <;> omega

/-- Bytes deleted: the window shrinks by those that were there, and the entries follow. -/
theorem deleted_deleteBytes (th : Thread) (o : Nat) {n : Nat} (hn : n ≠ 0) :
    Deleted th (th.deleteBytes o n) (min o th.win.length) (min n (th.win.length - min o th.win.length)) := by
  simp only [Deleted, Thread.deleteBytes, if_neg hn]
  refine ⟨trivial, trivial, offsets_mapHdrOff (fun e he => ?_) rfl⟩
  split
  · exact he
  · split <;> omega

/-- Of a thread, at most window, tail and call slip have changed. -/
def EditsFrame (th u : Thread) : Prop := u = { th with win := u.win, tail := u.tail, slip := u.slip }

theorem editsFrame_insertBytes (th : Thread) (o : Nat) (bs : List Byte) : EditsFrame th (th.insertBytes o bs) := by
  unfold Thread.insertBytes
  dsimp only
  split <;> rfl

theorem editsFrame_deleteBytes (th : Thread) (o n : Nat) : EditsFrame th (th.deleteBytes o n) := by
  unfold Thread.deleteBytes
  dsimp only
  split <;> rfl

/-- A word that edits the frame has moved its thread on. -/
theorem moved_of_editsFrame {th u : Thread} (h : EditsFrame th.stepped u) : MovesOn th u ∧ OnlyFrame th u := by
  refine ⟨?_, ?_⟩
  · rw [h]
    exact movesOn_of_stepped rfl rfl rfl
  · rw [OnlyFrame, h, onlyMoved_stepped]

/-! ### The words -/

theorem winGet_stepped (th : Thread) (o n : Nat) : winGet th.stepped o n = winGet th o n := by
  simp only [winGet, winByte, Thread.stepped_win]

theorem inserted_stepped {th u : Thread} {o n : Nat} (h : Inserted th.stepped u o n) : Inserted th u o n := by
  simpa [Inserted, Offsets] using h

theorem deleted_stepped {th u : Thread} {o n : Nat} (h : Deleted th.stepped u o n) : Deleted th u o n := by
  simpa [Deleted, Offsets] using h

/-- LDH reads at most eight bytes (R117). -/
theorem ldh_width_le {t t' : Tid} {p : BitVec 4} {a b : Operand} {c : BitVec 12} {w : DWord}
    (hi : (Instr.ldh t p a b c).dword = some (t', w)) (hok : w.ok = true) : c.toNat ≤ 8 := by
  obtain ⟨-, rfl⟩ : t = t' ∧ _ = w := by simpa [Instr.dword] using hi
  simp only [DWord.ok, Operand.isImm, BitVec.toNat_ofNat, Bool.and_eq_true, decide_eq_true_eq] at hok
  exact hok.2.2

/-- LDH takes the window's bytes, big-endian. -/
theorem ldh_value (th : Thread) (o : Nat) {n : Nat} (hn : n ≤ 8) :
    (BitVec.ofNat 64 (winGet th o n)).toNat = bigEndian (fun k => th.win.getD k 0) o n := by
  have hlt : winGet th o n < 2 ^ 64 := (winGet_lt th o n).trans_le (Nat.pow_le_pow_right (by decide) hn)
  rw [BitVec.toNat_ofNat, Nat.mod_eq_of_lt hlt, winGet_eq_bigEndian]

theorem onlyPlaces_hdrLdh (th : Thread) (a b : Operand) (c : BitVec 12) : OnlyPlaces th (hdrLdh a b c th) :=
  onlyPlaces_writeOp _ _ _

theorem onlyPlaces_hdrSth (th : Thread) (a b : Operand) (c : BitVec 12) : OnlyPlaces th (hdrSth a b c th) :=
  onlyPlaces_winPut _ _ _

/-- LDH writes the window's bytes, big-endian, to its destination. -/
theorem hdrLdh_effect (th : Thread) (a b : Operand) {c : BitVec 12} (hc : c.toNat ≤ 8) :
    ∃ v : Word64, Wrote th (hdrLdh a b c th.stepped) v a ∧
      v.toNat = bigEndian (fun k => th.win.getD k 0) (readOp th b).toNat c.toNat := by
  rw [hdrLdh, readOp_stepped, winGet_stepped]
  exact ⟨_, wrote_stepped (wrote_writeOp _ _ _), ldh_value _ _ hc⟩

/-- STH writes the low bytes of a value to the window, and to no other place. -/
theorem hdrSth_effect (th : Thread) (a b : Operand) (c : BitVec 12) :
    WroteWindow th (hdrSth a b c th.stepped) (readOp th a).toNat c.toNat (readOp th b) ∧
    (hdrSth a b c th.stepped).g = th.g ∧ (hdrSth a b c th.stepped).t = th.t ∧
    (hdrSth a b c th.stepped).slip = th.slip := by
  rw [hdrSth, readOp_stepped, readOp_stepped]
  exact ⟨wroteWindow_stepped (wroteWindow_winPut _ _ _ _), th.stepped_g, th.stepped_t, th.stepped_slip⟩

theorem editsFrame_hdrInsh (th : Thread) (a b : Operand) : EditsFrame th (hdrInsh a b th) :=
  editsFrame_insertBytes _ _ _

theorem editsFrame_hdrDelh (th : Thread) (a b : Operand) : EditsFrame th (hdrDelh a b th) :=
  editsFrame_deleteBytes _ _ _

theorem editsFrame_hdrAlign (th : Thread) (a : BitVec 12) : EditsFrame th (hdrAlign a th) := by
  unfold hdrAlign
  dsimp only
  split
  · rfl
  · exact editsFrame_deleteBytes _ _ _

/-- INSH of no bytes changes nothing; of some, it inserts them at the offset, clamped to the window. -/
theorem hdrInsh_effect (th : Thread) (a b : Operand) :
    if (readOp th b).toNat % 256 = 0 then OnlyMoved th (hdrInsh a b th.stepped)
    else Inserted th (hdrInsh a b th.stepped) (min (readOp th a).toNat th.win.length) ((readOp th b).toNat % 256) := by
  rw [hdrInsh, readOp_stepped, readOp_stepped]
  split
  next hn => rw [hn]; exact onlyMoved_stepped th
  next hn => simpa using inserted_stepped (inserted_insertBytes th.stepped (readOp th a).toNat hn)

/-- DELH of no bytes changes nothing; of some, it deletes those that the window holds from the offset. -/
theorem hdrDelh_effect (th : Thread) (a b : Operand) :
    if (readOp th b).toNat % 256 = 0 then OnlyMoved th (hdrDelh a b th.stepped)
    else Deleted th (hdrDelh a b th.stepped) (min (readOp th a).toNat th.win.length)
      (min ((readOp th b).toNat % 256) (th.win.length - min (readOp th a).toNat th.win.length)) := by
  rw [hdrDelh, readOp_stepped, readOp_stepped]
  split
  next hn => rw [hn]; exact onlyMoved_stepped th
  next hn => simpa using deleted_stepped (deleted_deleteBytes th.stepped (readOp th a).toNat hn)

/-- ALIGN to an absent entry, or to one of 0, changes nothing; to another, it deletes the bytes before it. -/
theorem hdrAlign_effect (th : Thread) (a : BitVec 12) :
    if slipByte th.slip (0x10 + a.toNat) = 0xFF ∨ slipByte th.slip (0x10 + a.toNat) = 0 then
      OnlyMoved th (hdrAlign a th.stepped)
    else Deleted th (hdrAlign a th.stepped) 0 (min (slipByte th.slip (0x10 + a.toNat)).toNat th.win.length) := by
  have hoff : hdrOff th.stepped a.toNat = hdrOff th a.toNat := by rw [hdrOff, Thread.stepped_slip, hdrOff]
  simp only [hdrAlign, hoff, hdrOff_eq_absent]
  by_cases habsent : slipByte th.slip (0x10 + a.toNat) = 0xFF
  · rw [if_pos (.inl habsent), if_pos habsent]
    exact onlyMoved_stepped th
  · rw [if_neg habsent]
    by_cases hzero : slipByte th.slip (0x10 + a.toNat) = 0
    · rw [if_pos (.inr hzero), hdrOff, hzero]
      exact onlyMoved_stepped th
    · have hn : hdrOff th a.toNat ≠ 0 := fun h => hzero (BitVec.eq_of_toNat_eq h)
      rw [if_neg (by tauto)]
      simpa [hdrOff] using deleted_stepped (deleted_deleteBytes th.stepped 0 hn)

end Sys2Proof.Spec

/-- Settles O9: LDH and STH move bytes between the window and an operand; INSH, DELH and ALIGN edit the frame and its
HDR_OFF entries. -/
theorem headerWordsMoveBytes : Obligations.HeaderWordsMoveBytes := by
  refine ⟨fun i t w s hm ha hw => ?_, fun i t w s hm ha hw => ?_⟩
  · obtain ⟨hldh, hsth, -⟩ := command_of_nw ha.1
    rcases hw with hw | hw
    · obtain ⟨a, b, c, rfl⟩ := hldh hw
      obtain ⟨s', hx, hot, hmem, hth⟩ := exec_acts hm ha rfl
      obtain ⟨hmoved, honly, hflags⟩ := moved_of_onlyPlaces (onlyPlaces_hdrLdh (s.thread t).stepped a b c)
      refine ⟨s', hx, hot, hmem, ?_⟩
      rw [hth]
      refine ⟨hmoved, honly, hflags, ?_, nofun⟩
      rintro p a' b' c' ⟨⟩
      exact hdrLdh_effect _ _ _ (ldh_width_le ha.1 ha.2.1)
    · obtain ⟨a, b, c, rfl⟩ := hsth hw
      obtain ⟨s', hx, hot, hmem, hth⟩ := exec_acts hm ha rfl
      obtain ⟨hmoved, honly, hflags⟩ := moved_of_onlyPlaces (onlyPlaces_hdrSth (s.thread t).stepped a b c)
      refine ⟨s', hx, hot, hmem, ?_⟩
      rw [hth]
      refine ⟨hmoved, honly, hflags, nofun, ?_⟩
      rintro p a' b' c' ⟨⟩
      exact hdrSth_effect _ _ _ _
  · obtain ⟨-, -, hinsh, hdelh, halign, -⟩ := command_of_nw ha.1
    simp only [List.mem_cons, List.not_mem_nil, or_false] at hw
    rcases hw with hw | hw | hw
    · obtain ⟨a, b, rfl⟩ := hinsh hw
      obtain ⟨s', hx, hot, hmem, hth⟩ := exec_acts hm ha rfl
      obtain ⟨hmoved, honly⟩ := moved_of_editsFrame (editsFrame_hdrInsh (s.thread t).stepped a b)
      refine ⟨s', hx, hot, hmem, ?_⟩
      rw [hth]
      refine ⟨hmoved, honly, ?_, nofun, nofun⟩
      rintro p a' b' ⟨⟩
      exact hdrInsh_effect _ _ _
    · obtain ⟨a, b, rfl⟩ := hdelh hw
      obtain ⟨s', hx, hot, hmem, hth⟩ := exec_acts hm ha rfl
      obtain ⟨hmoved, honly⟩ := moved_of_editsFrame (editsFrame_hdrDelh (s.thread t).stepped a b)
      refine ⟨s', hx, hot, hmem, ?_⟩
      rw [hth]
      refine ⟨hmoved, honly, nofun, ?_, nofun⟩
      rintro p a' b' ⟨⟩
      exact hdrDelh_effect _ _ _
    · obtain ⟨a, rfl⟩ := halign hw
      obtain ⟨s', hx, hot, hmem, hth⟩ := exec_acts hm ha rfl
      obtain ⟨hmoved, honly⟩ := moved_of_editsFrame (editsFrame_hdrAlign (s.thread t).stepped a)
      refine ⟨s', hx, hot, hmem, ?_⟩
      rw [hth]
      refine ⟨hmoved, honly, nofun, nofun, ?_⟩
      rintro p a' ⟨⟩
      exact hdrAlign_effect _ _

end
